-- ==== Sys2Proof/Word.lean ====
section
/-! DEFINITION. The two word sizes of the block (00_scope.md rule R9). No value in the block is signed. -/

namespace Sys2Proof

/-- An unsigned 8-bit value (R9). -/
abbrev Byte := BitVec 8

/-- An unsigned 16-bit value (R9): a command word, a register, a checksum. -/
abbrev Halfword := BitVec 16

end Sys2Proof
end

