-- ==== Sys2Proof/Config.lean ====
section
/-! DEFINITION. What is fixed for one instance of the block before its first operation (R5, R6, R213).

The spec leaves no result open, so there is no free value here. -/

namespace Sys2Proof

/-- The parameters of an instance. They are premises of every run and never change during it (R37, R222). -/
structure Params where
  /-- PROTO_VERSION: the version the receive framer accepts and the transmit framer writes (R5). -/
  protoVersion : Byte := 0x01#8
  /-- MAX_PAYLOAD: the largest payload length the receive framer accepts, 0..255 (R6). -/
  maxPayload : Byte := 0xFF#8
deriving DecidableEq, Repr

/-- The instance the spec takes when nothing else is said: version 0x01, maximum 255 (R5, R6). -/
def Params.default : Params := {}

end Sys2Proof
end

