-- ==== Sys2Proof/Syntax.lean ====
section
/-! DEFINITION. The operations of the command interface, one constructor per row of the opcode map
(30_encoding.md rules R92, R93; spec/opcode_table.json). -/

namespace Sys2Proof

/-- One operation with its operand byte. NOP, CRC.INIT and a reserved word ignore their operand (R91, R183);
it is kept so that no bit of a command word is lost. -/
inductive Instr where
  /-- NOP (R180). -/
  | nop (imm : Byte)
  /-- CRC.INIT (R111). -/
  | crcInit (imm : Byte)
  /-- CRC.BYTE b (R112). -/
  | crcByte (b : Byte)
  /-- RX.BYTE b (R150). -/
  | rxByte (b : Byte)
  /-- TX.TYPE t (R131). -/
  | txType (t : Byte)
  /-- TX.SEQ s (R132). -/
  | txSeq (q : Byte)
  /-- TX.LEN n (R133). -/
  | txLen (n : Byte)
  /-- TX.DATA b (R134). -/
  | txData (b : Byte)
  /-- RD i (R181). -/
  | rd (i : Byte)
  /-- A reserved command word: any opcode outside R92 (R93, R183). -/
  | reserved (opc : Byte) (imm : Byte)
deriving DecidableEq, Repr

end Sys2Proof
end

