-- ==== Sys2Proof/WellFormed.lean ====
section
/-! DEFINITION. Which terms of `Instr` stand for a command word. Every operand byte of every operation is allowed
(R91, R93); only `reserved` carries a condition, that its opcode is one of the reserved ones. -/

namespace Sys2Proof

/-- The four ranges of reserved opcodes, as R93 lists them: 0x03 to 0x0F, 0x11 to 0x1F, 0x24 to 0x2F, 0x31 to 0xFF. -/
def reservedOpcode (opc : Byte) : Bool :=
  (0x03 ≤ opc.toNat && opc.toNat ≤ 0x0F) || (0x11 ≤ opc.toNat && opc.toNat ≤ 0x1F) ||
  (0x24 ≤ opc.toNat && opc.toNat ≤ 0x2F) || (0x31 ≤ opc.toNat && opc.toNat ≤ 0xFF)

/-- A term is well formed when it is the reading of some command word. -/
def Instr.wf : Instr → Bool
  | .nop _ => true
  | .crcInit _ => true
  | .crcByte _ => true
  | .rxByte _ => true
  | .txType _ => true
  | .txSeq _ => true
  | .txLen _ => true
  | .txData _ => true
  | .rd _ => true
  | .reserved opc _ => reservedOpcode opc

end Sys2Proof
end

