-- ==== Sys2Proof/Decode.lean ====
section
/-! DEFINITION. Reading a command word and writing one (30_encoding.md part B, rules R90 to R93).

A decoder matches OPC exactly (mask 0xFF00). Every 16-bit word is an operation, a reserved one included, so a word is
never turned away; only a bit pattern that is no command word at all (more than 16 bits) is, by name. -/

namespace Sys2Proof

/-- OPC, bits 15:8 of a command word (R90). -/
def opcodeField (w : Halfword) : Byte := w.extractLsb' 8 8

/-- IMM8, bits 7:0 of a command word (R90). -/
def immField (w : Halfword) : Byte := w.extractLsb' 0 8

/-- The operation an OPC and an IMM8 select (R92). IMM8 is taken as it stands: never extended, scaled or shifted (R91).
Every other opcode is reserved (R93). -/
def decodeFields (opc imm : Byte) : Instr :=
  match opc.toNat with
  | 0x00 => .nop imm
  | 0x01 => .crcInit imm
  | 0x02 => .crcByte imm
  | 0x10 => .rxByte imm
  | 0x20 => .txType imm
  | 0x21 => .txSeq imm
  | 0x22 => .txLen imm
  | 0x23 => .txData imm
  | 0x30 => .rd imm
  | _ => .reserved opc imm

/-- The operation a command word selects (R90, R92). -/
def decodeWord (w : Halfword) : Instr := decodeFields (opcodeField w) (immField w)

/-- Why a bit pattern is no command word. -/
inductive DecodeError where
  /-- The pattern is wider than the one 16-bit format (R90), or has a bit set beyond its stated width. -/
  | notACommandWord
deriving DecidableEq, Repr

/-- The operation in a pattern of `nbits` bits with value `w`, bit 0 the least significant; bits above `nbits` are 0.
There is one format of 16 bits and no other (R90). -/
def decodeBits (nbits w : Nat) : Except DecodeError Instr :=
  if 16 < nbits ∨ 2 ^ nbits ≤ w then .error .notACommandWord else .ok (decodeWord (BitVec.ofNat 16 w))

/-- The decoder's answer on a row of the opcode table: `none` where it turns the pattern away. -/
def decodeTableWord (nbits w : Nat) : Option Instr :=
  match decodeBits nbits w with
  | .ok i => some i
  | .error _ => none

/-- The OPC of an operation (R92); a reserved one keeps its own. -/
def Instr.opcode : Instr → Byte
  | .nop _ => 0x00#8
  | .crcInit _ => 0x01#8
  | .crcByte _ => 0x02#8
  | .rxByte _ => 0x10#8
  | .txType _ => 0x20#8
  | .txSeq _ => 0x21#8
  | .txLen _ => 0x22#8
  | .txData _ => 0x23#8
  | .rd _ => 0x30#8
  | .reserved opc _ => opc

/-- The IMM8 of an operation (R91). -/
def Instr.imm : Instr → Byte
  | .nop imm => imm
  | .crcInit imm => imm
  | .crcByte b => b
  | .rxByte b => b
  | .txType t => t
  | .txSeq q => q
  | .txLen n => n
  | .txData b => b
  | .rd i => i
  | .reserved _ imm => imm

/-- The command word of an operation, `(OPC << 8) | imm` (R94). -/
def encode (i : Instr) : Halfword := i.opcode ++ i.imm

end Sys2Proof
end

