-- ==== Sys2Proof/Machine/State.lean ====
section
/-! DEFINITION. The state of the block (10_state.md), its reset value (R40), and the reasons a step can stop.

The first nine components after `params` are the block's state, exactly the tuple of R37. `params` is the instance
(R5, R6; log 4). `out`, `pending` and `run` are the model's own: what the environment will present and what it has been
given (R12, R222; logs 1 and 3). No operation reads `out`, `pending` or `run`. -/

namespace Sys2Proof.Machine

/-- The four header bytes in wire order: version, message type, sequence number, payload length (R24, R82). -/
structure Header where
  version : Byte
  msgType : Byte
  seq : Byte
  length : Byte
deriving DecidableEq, Repr

/-- RXS, the receive framer's state (R24). `Pay` and `Chk` hold a complete header, so its four bytes are named;
R25 lets a model type them so (log 5). -/
inductive RxState where
  /-- ScanningStart; `sawAA` when the last byte taken here was 0xAA. -/
  | scan (sawAA : Bool)
  /-- ReadingHeader, with the header bytes so far. -/
  | hdr (h : List Byte)
  /-- ReadingPayload, with the header and the payload bytes so far. -/
  | pay (h : Header) (p : List Byte)
  /-- ReadingChecksum, with the frame's header and payload and the checksum's first byte once received. -/
  | chk (h : Header) (p : List Byte) (lo : Option Byte)
deriving DecidableEq, Repr

/-- TXS, the transmit framer's state (R29). -/
inductive TxState where
  /-- No frame in progress. -/
  | idle
  /-- Header sent, `rem` payload bytes (1..255; log 7) still to come, `crc` the CRC-16 of the bytes sent after the marker. -/
  | pay (rem : Byte) (crc : Halfword)
deriving DecidableEq, Repr

/-- A frame as the receive framer emits it, fields in the order of R31. -/
structure Frame where
  version : Byte
  msgType : Byte
  seq : Byte
  length : Byte
  payload : List Byte
  checksum : Halfword
deriving DecidableEq, Repr

/-- The output record of one operation (R12). A component an operation does not set is empty. -/
structure Output where
  tx : List Byte := []
  frame : Option Frame := none
  rd : Option Halfword := none
deriving DecidableEq, Repr

/-- The output record in which nothing is set. -/
def Output.none : Output := {}

/-- The three output streams of a run, in event order (R222). -/
structure Streams where
  tx : List Byte := []
  frames : List Frame := []
  reads : List Halfword := []
deriving DecidableEq, Repr

/-- The streams of a run in which nothing has come out yet. -/
def Streams.none : Streams := {}

/-- One event of a run (R222). -/
inductive Event where
  /-- A command word from the host port. -/
  | cmd (w : Halfword)
  /-- A byte taken from the line by the UART receiver, which issues it as an RX.BYTE (R22). -/
  | rx (b : Byte)
  /-- The platform's reset (R210). -/
  | reset
deriving DecidableEq, Repr

structure State where
  /-- PROTO_VERSION and MAX_PAYLOAD of this instance (R5, R6); no step writes them. -/
  params : Params
  /-- CRC, the host-driven accumulator (R23). -/
  crc : Halfword
  /-- RXS (R24). -/
  rxs : RxState
  /-- HDR_ERR, discarded headers, wrapping (R26). -/
  hdrErr : Halfword
  /-- CRC_ERR, checksum mismatches, wrapping (R27). -/
  crcErr : Halfword
  /-- TX_TYPE, the next frame's message type (R28). -/
  txType : Byte
  /-- TX_SEQ, the next frame's sequence number (R28). -/
  txSeq : Byte
  /-- TXS (R29). -/
  txs : TxState
  /-- ILLCMD, sticky (R30). -/
  illCmd : Bool
  /-- TXERR, sticky (R30). -/
  txErr : Bool
  /-- The output record of the latest event (R12; log 3). -/
  out : Output
  /-- The events still to come, in the total order of R69 (log 1). -/
  pending : List Event
  /-- What the run has given so far (R222; log 3). -/
  run : Streams
deriving DecidableEq, Repr

/-- The reset state of R40 for the instance `p`. The model's own fields start empty (DESIGN CHOICE, logs 1 and 3). -/
def State.resetFor (p : Params) : State where
  params := p
  crc := 0xFFFF#16
  rxs := .scan false
  hdrErr := 0x0000#16
  crcErr := 0x0000#16
  txType := 0x00#8
  txSeq := 0x00#8
  txs := .idle
  illCmd := false
  txErr := false
  out := Output.none
  pending := []
  run := Streams.none

/-- The machine right after reset (R40), with the default parameters (R5, R6; log 4). -/
def State.reset : State := State.resetFor Params.default

/-- Why a step could stop with a fault. Nothing raises one: "The block raises no exception and has no trap mechanism"
(R190), and no run can fault, get stuck or hang inside the block (R222). The type is therefore empty, which is exact. -/
inductive Fault where
deriving DecidableEq, Repr

/-- Why an instruction could be turned away. -/
inductive Refusal where
  /-- Raised by `exec` for an instruction that has no meaning yet; no arm raises it now. Safe: the run stops. -/
  | notModelled (mnemonic : String)
deriving DecidableEq, Repr

end Sys2Proof.Machine
end

