-- ==== Sys2Proof/Machine/Ops.lean ====
section
/-! DEFINITION. The shared operations: bit helpers (R9), the CRC-16 function (41_crc.md), the writes of each state
component, the recording of the four error conditions (R190), the output record (R12), reset (R210), and taking the
next event (R69, R222).

The block has no memory (R60) and takes no exception (R190, R196): the recordings of R190 stand where another machine
would have its exception entry, and there is nothing to return from (R197). -/

namespace Sys2Proof.Machine

/-- What an operation or a step answers. -/
abbrev Answer := Host.Outcome State Fault Refusal

/-! ### Bit helpers (R9) -/

/-- `lo8(h)`: bits 7..0. -/
def lo8 (h : Halfword) : Byte := h.extractLsb' 0 8

/-- `hi8(h)`: bits 15..8. -/
def hi8 (h : Halfword) : Byte := h.extractLsb' 8 8

/-- `zext_16(b)`: the byte with bits 15..8 zero. -/
def zext16 (b : Byte) : Halfword := b.setWidth 16

/-- The halfword with bits 7..0 from `lo` and bits 15..8 from `hi`, `zext_16(lo) | (hi << 8)` (R65). -/
def pairLE (lo hi : Byte) : Halfword := zext16 lo ||| (zext16 hi <<< 8)

/-! ### CRC-16 (41_crc.md) -/

/-- The polynomial 0x1021 (R7, R110). -/
def crcPoly : Halfword := 0x1021#16

/-- The initial value 0xFFFF (R7, R113). -/
def crcInitial : Halfword := 0xFFFF#16

/-- One turn of R110's loop: shift left, and fold the polynomial in when the bit shifted out was 1. -/
def crcBit (c : Halfword) : Halfword :=
  if c.getLsbD 15 then (c <<< 1) ^^^ crcPoly else c <<< 1

/-- `n` turns of the loop. -/
def crcBits : Nat → Halfword → Halfword
  | 0, c => c
  | n + 1, c => crcBits n (crcBit c)

/-- `crcStep(c, b)`: the byte enters at bits 15..8, then eight turns, so bit 7 is processed first (R110, R64). -/
def crcStep (c : Halfword) (b : Byte) : Halfword :=
  crcBits 8 (c ^^^ (zext16 b <<< 8))

/-- `crc16(xs)`: fold every byte in order from 0xFFFF, no final XOR (R113). -/
def crc16 (xs : List Byte) : Halfword := xs.foldl crcStep crcInitial

/-! ### The frame on the wire (30_encoding.md part A) -/

/-- First start-marker byte (R81). -/
def marker1 : Byte := 0xAA#8

/-- Second start-marker byte (R81). -/
def marker2 : Byte := 0x55#8

/-- The header in wire order (R82). -/
def Header.bytes (h : Header) : List Byte := [h.version, h.msgType, h.seq, h.length]

/-- The checksum of a frame: header and payload, neither marker nor checksum (R83). -/
def frameCrc (h : Header) (p : List Byte) : Halfword := crc16 (h.bytes ++ p)

/-- A checksum as it goes on the wire, low byte first (R62). -/
def checksumBytes (c : Halfword) : List Byte := [lo8 c, hi8 c]

/-! ### Writing the state -/

/-- `CRC <- v`. -/
def State.setCrc (v : Halfword) (s : State) : State := { s with crc := v }

/-- `RXS <- r`. -/
def State.setRxs (r : RxState) (s : State) : State := { s with rxs := r }

/-- `TX_TYPE <- t`. -/
def State.setTxType (t : Byte) (s : State) : State := { s with txType := t }

/-- `TX_SEQ <- q`. -/
def State.setTxSeq (q : Byte) (s : State) : State := { s with txSeq := q }

/-- `TXS <- x`. -/
def State.setTxs (x : TxState) (s : State) : State := { s with txs := x }

/-- The operation's output record (R12): `emitTx`, `emitFrame` and `readData` of R11 together. -/
def State.emit (o : Output) (s : State) : State := { s with out := o }

/-! ### Recording an error condition (R190) -/

/-- Header error: HDR_ERR counts one more, modulo 2^16 (R26), if `e`. -/
def State.countHdrErr (e : Bool) (s : State) : State :=
  { s with hdrErr := if e then s.hdrErr + 1#16 else s.hdrErr }

/-- Checksum error: CRC_ERR counts one more, modulo 2^16 (R27), if `e`. -/
def State.countCrcErr (e : Bool) (s : State) : State :=
  { s with crcErr := if e then s.crcErr + 1#16 else s.crcErr }

/-- Transmit command out of sequence: TXERR is set and stays set (R30). -/
def State.raiseTxErr (s : State) : State := { s with txErr := true }

/-- Reserved command word: ILLCMD is set and stays set (R30, R183). -/
def State.raiseIllCmd (s : State) : State := { s with illCmd := true }

/-! ### Events (70_reset_and_hazards.md) -/

/-- The reset event (R210): every state component takes its value of R40 and nothing is put out. The instance, the
events still to come and what the run has already given are not the block's state and stay. -/
def State.applyReset (s : State) : State :=
  { State.resetFor s.params with pending := s.pending, run := s.run }

/-- The environment presents the events `es`, to be performed before those already pending. -/
def State.present (es : List Event) (s : State) : State := { s with pending := es ++ s.pending }

/-- The events left after the first has been taken. -/
def State.dropEvent (s : State) : State := { s with pending := s.pending.tail }

/-- What the next step is to do. -/
inductive Action where
  /-- No event is pending. -/
  | idle
  /-- Perform one operation. -/
  | run (i : Instr)
  /-- Perform the reset event. -/
  | reset
deriving DecidableEq, Repr

/-- The operation an event stands for: a command word selects one (R90), a received byte is an RX.BYTE (R22). -/
def Event.action : Event → Action
  | .cmd w => .run (decodeWord w)
  | .rx b => .run (.rxByte b)
  | .reset => .reset

/-- What the next step is to do: the first pending event, or nothing (R69). -/
def State.nextAction (s : State) : Action :=
  match s.pending with
  | [] => .idle
  | e :: _ => e.action

/-- The streams after one more output record (R222): tx bytes appended, the frame and the read value if there is one. -/
def Streams.record (r : Streams) (o : Output) : Streams where
  tx := r.tx ++ o.tx
  frames := r.frames ++ o.frame.toList
  reads := r.reads ++ o.rd.toList

/-- The state with its output record added to the run's streams. -/
def State.recordOut (s : State) : State := { s with run := s.run.record s.out }

/-- An operation's answer with its output record added to the run's streams. -/
def retire : Answer → Answer
  | .next t => .next t.recordOut
  | .fault f => .fault f
  | .refused r => .refused r

end Sys2Proof.Machine
end

