-- ==== Sys2Proof/Machine/Flags.lean ====
section
/-! DEFINITION. The block's flags: the sticky bits and the derived STATUS fields (10_state.md rules R30, R33, R35).
There are no condition codes. -/

namespace Sys2Proof.Machine

/-- STATUS.RXST, bits 1:0: 0 in Scan, 1 in Hdr, 2 in Pay, 3 in Chk (R33). -/
def RxState.code : RxState → Halfword
  | .scan _ => 0#16
  | .hdr _ => 1#16
  | .pay _ _ => 2#16
  | .chk _ _ _ => 3#16

/-- STATUS.RXAA, bit 2: 1 exactly in Scan(true) (R33). -/
def RxState.sawMarker1 : RxState → Bool
  | .scan a => a
  | .hdr _ => false
  | .pay _ _ => false
  | .chk _ _ _ => false

/-- STATUS.TXBUSY, bit 3: 1 exactly in TxPay (R33). -/
def TxState.busy : TxState → Bool
  | .idle => false
  | .pay _ _ => true

/-- The flag `b` at bit `k` of a halfword. -/
def flagAt (b : Bool) (k : Nat) : Halfword := (if b then 1#16 else 0#16) <<< k

/-- STATUS, computed at the time of the read (R33, R181). -/
def State.status (s : State) : Halfword :=
  s.rxs.code ||| flagAt s.rxs.sawMarker1 2 ||| flagAt s.txs.busy 3 ||| flagAt s.illCmd 4 ||| flagAt s.txErr 5

end Sys2Proof.Machine
end

