-- ==== Sys2Proof/Machine/Operands.lean ====
section
/-! DEFINITION. The one operand form that is more than a plain byte: the register index of RD and the register map it
selects from (10_state.md rules R32 to R34; 44_control.md rule R181). Every other operand is IMM8 itself (R91). -/

namespace Sys2Proof.Machine

/-- The registers of R32. -/
inductive Reg where
  | crc
  | status
  | hdrErr
  | crcErr
  | txRemain
  | config
  | txHdr
  /-- Indices 0x07..0xFF. -/
  | reserved
deriving DecidableEq, Repr

/-- The register an index names (R32). -/
def Reg.ofIndex (i : Byte) : Reg :=
  match i.toNat with
  | 0x00 => .crc
  | 0x01 => .status
  | 0x02 => .hdrErr
  | 0x03 => .crcErr
  | 0x04 => .txRemain
  | 0x05 => .config
  | 0x06 => .txHdr
  | _ => .reserved

/-- TX_REMAIN: `rem` while a frame is open, else 0 (R32). -/
def TxState.remaining : TxState → Halfword
  | .idle => 0x0000#16
  | .pay rem _ => zext16 rem

/-- CONFIG: PROTO_VERSION in bits 7..0, MAX_PAYLOAD in bits 15..8 (R34). -/
def configWord (p : Params) : Halfword := pairLE p.protoVersion p.maxPayload

/-- What a register reads as (R181). Reading changes nothing (R68). -/
def State.readReg (s : State) : Reg → Halfword
  | .crc => s.crc
  | .status => s.status
  | .hdrErr => s.hdrErr
  | .crcErr => s.crcErr
  | .txRemain => s.txs.remaining
  | .config => configWord s.params
  | .txHdr => pairLE s.txType s.txSeq
  | .reserved => 0x0000#16

end Sys2Proof.Machine
end

