-- ==== Sys2Proof/Machine/Control.lean ====
section
/-! DEFINITION. NOP, RD and reserved command words (44_control.md rules R180, R181, R183). -/

namespace Sys2Proof.Machine

/-- NOP: nothing (R180). Its IMM8 is ignored (R91). -/
def execNop (_imm : Byte) (s : State) : Answer :=
  .next (s.emit Output.none)

/-- RD i: the read-data output is the register; no state changes (R181, R68). -/
def execRd (i : Byte) (s : State) : Answer :=
  .next (s.emit { rd := some (s.readReg (Reg.ofIndex i)) })

/-- A reserved command word: `ILLCMD <- 1`, nothing else (R183). -/
def execReserved (_opc _imm : Byte) (s : State) : Answer :=
  .next (s.raiseIllCmd.emit Output.none)

end Sys2Proof.Machine
end

