-- ==== Sys2Proof/Machine/Crc.lean ====
section
/-! DEFINITION. The host-driven CRC engine: CRC.INIT and CRC.BYTE (41_crc.md rules R111, R112). -/

namespace Sys2Proof.Machine

/-- CRC.INIT: `CRC <- 0xFFFF` (R111). Its IMM8 is ignored (R91). -/
def execCrcInit (_imm : Byte) (s : State) : Answer :=
  .next ((s.setCrc crcInitial).emit Output.none)

/-- CRC.BYTE b: `CRC <- crcStep(CRC, b)` (R112). -/
def execCrcByte (b : Byte) (s : State) : Answer :=
  .next ((s.setCrc (crcStep s.crc b)).emit Output.none)

end Sys2Proof.Machine
end

