-- ==== Sys2Proof/Machine/Rx.lean ====
section
/-! DEFINITION. The receive framer: RX.BYTE and its transition function (43_rx_framer.md). -/

namespace Sys2Proof.Machine

/-- What one received byte does: the new RXS, the frame if one is emitted, and which counter counts (R150). -/
structure RxResult where
  rxs : RxState
  frame : Option Frame := none
  hdrErr : Bool := false
  crcErr : Bool := false
deriving DecidableEq, Repr

/-- In Scan: 0x55 right after 0xAA starts a frame; otherwise armed exactly when the byte is 0xAA (R151). -/
def rxScan (sawAA : Bool) (b : Byte) : RxResult :=
  if sawAA = true ∧ b = marker2 then { rxs := .hdr [] } else { rxs := .scan (b == marker1) }

/-- The complete header is bad: wrong version, or length above the maximum, or both (R153, R154). -/
def headerBad (p : Params) (h : Header) : Bool :=
  h.version != p.protoVersion || decide (p.maxPayload.toNat < h.length.toNat)

/-- The fourth header byte has arrived: discard, or go on to the payload, or straight to the checksum when the length
is 0 (R153 to R155). -/
def rxHeaderDone (p : Params) (h : Header) : RxResult :=
  if headerBad p h = true then { rxs := .scan false, hdrErr := true }
  else if h.length = 0x00#8 then { rxs := .chk h [] none }
  else { rxs := .pay h [] }

/-- In Hdr: collect until there are four bytes, then check (R152, R153). -/
def rxHdr (p : Params) (h : List Byte) (b : Byte) : RxResult :=
  match h ++ [b] with
  | v :: t :: q :: n :: _ => rxHeaderDone p ⟨v, t, q, n⟩
  | h' => { rxs := .hdr h' }

/-- In Pay: collect up to the declared length (R156). -/
def rxPay (h : Header) (p : List Byte) (b : Byte) : RxResult :=
  if (p ++ [b]).length = h.length.toNat then { rxs := .chk h (p ++ [b]) none } else { rxs := .pay h (p ++ [b]) }

/-- The frame of a header, a payload and the received checksum (R160). -/
def Header.frame (h : Header) (p : List Byte) (r : Halfword) : Frame where
  version := h.version
  msgType := h.msgType
  seq := h.seq
  length := h.length
  payload := p
  checksum := r

/-- The second checksum byte has arrived: compare with the CRC of header and payload (R158 to R160). -/
def rxVerify (h : Header) (p : List Byte) (lo b : Byte) : RxResult :=
  if pairLE lo b = frameCrc h p then { rxs := .scan false, frame := some (h.frame p (pairLE lo b)) }
  else { rxs := .scan false, crcErr := true }

/-- `rxStep` (R150). -/
def rxStep (p : Params) (r : RxState) (b : Byte) : RxResult :=
  match r with
  | .scan a => rxScan a b
  | .hdr h => rxHdr p h b
  | .pay h d => rxPay h d b
  | .chk h d none => { rxs := .chk h d (some b) }
  | .chk h d (some lo) => rxVerify h d lo b

/-- The state after one result of `rxStep`: RXS, the two counters, the frame output (R150). -/
def State.acceptRx (r : RxResult) (s : State) : State :=
  (((s.setRxs r.rxs).countHdrErr r.hdrErr).countCrcErr r.crcErr).emit { frame := r.frame }

/-- RX.BYTE b: feed one received byte to the receive framer (R150). -/
def execRxByte (b : Byte) (s : State) : Answer :=
  .next (s.acceptRx (rxStep s.params s.rxs b))

end Sys2Proof.Machine
end

