-- ==== Sys2Proof/Machine/Tx.lean ====
section
/-! DEFINITION. The transmit framer: `encode` (R130) and its byte-serial rendering TX.TYPE, TX.SEQ, TX.LEN, TX.DATA
(42_tx_framer.md rules R131 to R134). -/

namespace Sys2Proof.Machine

/-- The header of a frame to transmit: the version byte is always PROTO_VERSION (R130). -/
def txHeader (p : Params) (t q n : Byte) : Header where
  version := p.protoVersion
  msgType := t
  seq := q
  length := n

/-- The bytes TX.LEN puts out first: marker and header (R133). -/
def txPreamble (h : Header) : List Byte := [marker1, marker2] ++ h.bytes

/-- `encode(t, s, pl)` for a payload of at most 255 bytes (R130). -/
def encodeFrame (p : Params) (t q : Byte) (pl : List Byte) : List Byte :=
  let h := txHeader p t q (BitVec.ofNat 8 pl.length)
  txPreamble h ++ pl ++ checksumBytes (frameCrc h pl)

/-- A transmit command out of sequence: TXERR is set, no byte leaves, nothing else changes (R133, R134). -/
def State.txOutOfSequence (s : State) : State := s.raiseTxErr.emit Output.none

/-- TX.TYPE t: `TX_TYPE <- t` (R131). -/
def execTxType (t : Byte) (s : State) : Answer :=
  .next ((s.setTxType t).emit Output.none)

/-- TX.SEQ q: `TX_SEQ <- q` (R132). -/
def execTxSeq (q : Byte) (s : State) : Answer :=
  .next ((s.setTxSeq q).emit Output.none)

/-- TX.LEN from TxIdle: marker and header leave, and for n = 0 the checksum too (R133). The length is not checked
against MAX_PAYLOAD (R138). -/
def State.startFrame (n : Byte) (s : State) : State :=
  let h := txHeader s.params s.txType s.txSeq n
  let c := frameCrc h []
  if n = 0x00#8 then s.emit { tx := txPreamble h ++ checksumBytes c }
  else (s.setTxs (.pay n c)).emit { tx := txPreamble h }

/-- TX.LEN n: start a frame with payload length n (R133). -/
def execTxLen (n : Byte) (s : State) : Answer :=
  match s.txs with
  | .idle => .next (s.startFrame n)
  | .pay _ _ => .next s.txOutOfSequence

/-- TX.DATA from TxPay: the byte leaves unchanged, and after the last one the checksum (R134). -/
def State.sendPayload (rem : Byte) (c : Halfword) (b : Byte) (s : State) : State :=
  let c' := crcStep c b
  if rem = 0x01#8 then (s.setTxs .idle).emit { tx := [b] ++ checksumBytes c' }
  else (s.setTxs (.pay (rem - 1#8) c')).emit { tx := [b] }

/-- TX.DATA b: send one payload byte (R134). -/
def execTxData (b : Byte) (s : State) : Answer :=
  match s.txs with
  | .idle => .next s.txOutOfSequence
  | .pay rem c => .next (s.sendPayload rem c b)

end Sys2Proof.Machine
end

