-- ==== Sys2Proof/Machine/Dispatch.lean ====
section
/-! DEFINITION. One arm per operation of the opcode map (30_encoding.md rule R92), each one call of its meaning. -/

namespace Sys2Proof.Machine

def exec (i : Instr) (s : State) : Host.Outcome State Fault Refusal :=
  match i with
  | .nop imm => Sys2Proof.Machine.execNop imm s
  | .crcInit imm => Sys2Proof.Machine.execCrcInit imm s
  | .crcByte b => Sys2Proof.Machine.execCrcByte b s
  | .rxByte b => Sys2Proof.Machine.execRxByte b s
  | .txType t => Sys2Proof.Machine.execTxType t s
  | .txSeq q => Sys2Proof.Machine.execTxSeq q s
  | .txLen n => Sys2Proof.Machine.execTxLen n s
  | .txData b => Sys2Proof.Machine.execTxData b s
  | .rd k => Sys2Proof.Machine.execRd k s
  | .reserved opc imm => Sys2Proof.Machine.execReserved opc imm s

end Sys2Proof.Machine
end

