-- ==== Sys2Proof/Machine/Step.lean ====
section
/-! DEFINITION. One step: the next event of the run takes effect whole (R69, R222). -/

namespace Sys2Proof.Machine

/-- The next pending event is taken and performed. An operation is `exec` of the decoded command, and its output record
joins the run's streams (R222). Reset puts nothing out (R210). With nothing pending the block keeps its state
(R201, R219; log 2). -/
def step (s : State) : Host.Outcome State Fault Refusal :=
  match s.nextAction with
  | .idle => .next (s.emit Output.none)
  | .run i => retire (exec i s.dropEvent)
  | .reset => .next s.dropEvent.applyReset

/-- The state in which the host port presents the low `nbits` bits of `w` as the very next command word (log 11). The
block stores no program (R74), so this is how an operation comes to be the next one. -/
def State.withFetchWord (s : State) (nbits w : Nat) : State :=
  s.present [.cmd (BitVec.ofNat 16 (w % 2 ^ nbits))]

end Sys2Proof.Machine
end

