-- ==== Sys2Proof/Machine/Assembler.lean ====
section
/-! DEFINITION. How commands are written down: the assembler's command lines (30_encoding.md rule R94) and the
pseudo-instructions (R95). No behaviour of the block depends on this file (D21). -/

namespace Sys2Proof.Machine

/-! ### Pseudo-instructions (R95) -/

/-- `CRC.BLOCK b0, ..., bk`. -/
def crcBlock (bs : List Byte) : List Instr := .crcInit 0#8 :: bs.map .crcByte

/-- `TX.FRAME t, s, [b0, ..., bk]`. A payload of more than 255 bytes is refused: `none` (R137). -/
def txFrame (t q : Byte) (pl : List Byte) : Option (List Instr) :=
  if 255 < pl.length then none
  else some ([.txType t, .txSeq q, .txLen (BitVec.ofNat 8 pl.length)] ++ pl.map .txData)

/-- `RX.STREAM b0, ..., bk`. -/
def rxStream (bs : List Byte) : List Instr := bs.map .rxByte

/-! ### Numbers -/

/-- The value of a hexadecimal digit, in either letter case. -/
def hexDigit (c : Char) : Option Nat :=
  let n := c.toNat
  if 48 ≤ n ∧ n ≤ 57 then some (n - 48)
  else if 65 ≤ n ∧ n ≤ 70 then some (n - 55)
  else if 97 ≤ n ∧ n ≤ 102 then some (n - 87)
  else none

/-- The value of a decimal digit. -/
def decDigit (c : Char) : Option Nat :=
  let n := c.toNat
  if 48 ≤ n ∧ n ≤ 57 then some (n - 48) else none

/-- Digits in base `base`, most significant first, on top of the value `acc`. -/
def readDigits (base : Nat) (digit : Char → Option Nat) : Nat → List Char → Option Nat
  | acc, [] => some acc
  | acc, c :: cs =>
    match digit c with
    | some d => readDigits base digit (acc * base + d) cs
    | none => none

/-- Exactly `len` hexadecimal digits after `0x`. -/
def readHex (len : Nat) : List Char → Option Nat
  | '0' :: 'x' :: ds => if ds.length = len then readDigits 16 hexDigit 0 ds else none
  | _ => none

/-- A byte operand: `0xNN`, or decimal up to 255 (R94). -/
def readByte (t : List Char) : Option Byte :=
  match readHex 2 t with
  | some n => some (BitVec.ofNat 8 n)
  | none =>
    match t with
    | [] => none
    | _ :: _ =>
      match readDigits 10 decDigit 0 t with
      | some n => if n ≤ 255 then some (BitVec.ofNat 8 n) else none
      | none => none

/-! ### Command lines (R94) -/

/-- A register's name and index (R32). -/
def regNames : List (List Char × Byte) :=
  [("CRC".toList, 0x00#8), ("STATUS".toList, 0x01#8), ("HDR_ERR".toList, 0x02#8), ("CRC_ERR".toList, 0x03#8),
   ("TX_REMAIN".toList, 0x04#8), ("CONFIG".toList, 0x05#8), ("TX_HDR".toList, 0x06#8)]

/-- The operand of RD: a byte, or a register name. -/
def readReg (t : List Char) : Option Byte :=
  match regNames.lookup t with
  | some i => some i
  | none => readByte t

/-- A line without its comment: everything from the first `;` on is dropped. -/
def dropComment (l : List Char) : List Char := l.takeWhile (· != ';')

/-- The words of a line between blanks; `cur` is the word being read. -/
def lineWords : List Char → List Char → List (List Char)
  | cur, [] => if cur.isEmpty then [] else [cur]
  | cur, c :: cs =>
    if c = ' ' ∨ c = '\t' then (if cur.isEmpty then lineWords [] cs else cur :: lineWords [] cs)
    else lineWords (cur ++ [c]) cs

/-- The one-operand mnemonics and what they make of their operand (R92). -/
def operandMnemonics : List (List Char × (Byte → Instr)) :=
  [("CRC.BYTE".toList, .crcByte), ("RX.BYTE".toList, .rxByte), ("TX.TYPE".toList, .txType), ("TX.SEQ".toList, .txSeq),
   ("TX.LEN".toList, .txLen), ("TX.DATA".toList, .txData)]

/-- The command word of a line of one or two words; `none` where the line is no command of R94. -/
def readCommand : List (List Char) → Option Halfword
  | [m] =>
    if m = "NOP".toList then some (encode (.nop 0#8))
    else if m = "CRC.INIT".toList then some (encode (.crcInit 0#8))
    else none
  | [m, o] =>
    if m = ".word".toList then (readHex 4 o).map (BitVec.ofNat 16)
    else if m = "RD".toList then (readReg o).map fun i => encode (.rd i)
    else
      match operandMnemonics.lookup m with
      | some mk => (readByte o).map fun b => encode (mk b)
      | none => none
  | _ => none

/-- A line's command words: none for a blank or comment line, else one. -/
def assembleLine (l : List Char) : Option (List Halfword) :=
  match lineWords [] (dropComment l) with
  | [] => some []
  | ws => (readCommand ws).map fun w => [w]

/-! ### Writing a command -/

/-- A hexadecimal digit as it is written, upper case (R9). -/
def hexChar (n : Nat) : Char := "0123456789ABCDEF".toList.getD n '?'

/-- `0xNN`. -/
def byteText (b : Byte) : List Char := ['0', 'x', hexChar (b.toNat / 16), hexChar (b.toNat % 16)]

/-- `.word 0xNNNN`. -/
def wordText (w : Halfword) : List Char :=
  ".word 0x".toList ++
    [hexChar (w.toNat / 4096), hexChar (w.toNat / 256 % 16), hexChar (w.toNat / 16 % 16), hexChar (w.toNat % 16)]

/-- A command as R94 writes it. NOP and CRC.INIT have no operand there, so one whose ignored operand byte is not 0 is
written `.word`, like a reserved word. -/
def commandText (i : Instr) : List Char :=
  match i with
  | .nop imm => if imm = 0#8 then "NOP".toList else wordText (encode i)
  | .crcInit imm => if imm = 0#8 then "CRC.INIT".toList else wordText (encode i)
  | .crcByte b => "CRC.BYTE ".toList ++ byteText b
  | .rxByte b => "RX.BYTE ".toList ++ byteText b
  | .txType t => "TX.TYPE ".toList ++ byteText t
  | .txSeq q => "TX.SEQ ".toList ++ byteText q
  | .txLen n => "TX.LEN ".toList ++ byteText n
  | .txData b => "TX.DATA ".toList ++ byteText b
  | .rd k => "RD ".toList ++ byteText k
  | .reserved _ _ => wordText (encode i)

end Sys2Proof.Machine
end

