-- ==== Sys2Proof/Safety.lean ====
section
/-! DEFINITION. The terms claims are stated in: runs of events (R222), the invariants of R24, R25 and R29, which events
belong to which part of the block (R71), and the incremental receiver R221 allows. -/

namespace Sys2Proof

open Machine

/-! ### Runs (R222) -/

/-- Every event of `es` is presented and performed, in order. What was pending before stays pending after. -/
def runEvents (es : List Event) (s : State) : Host.Outcome State Fault Refusal :=
  Host.Core.run core es.length (s.present es)

/-- A host command: the operation `i` as a command word. -/
def host (i : Instr) : Event := .cmd (encode i)

/-- The operation an event performs, if it performs one; reset performs none (R222). -/
def Machine.Event.instr (e : Event) : Option Instr :=
  match e.action with
  | .run i => some i
  | .idle => none
  | .reset => none

/-! ### Invariants -/

/-- R25 for RXS, with the header's length of four bytes already in its type. -/
def rxWf (p : Params) : RxState → Bool
  | .scan _ => true
  | .hdr h => decide (h.length ≤ 3)
  | .pay h d =>
    h.version == p.protoVersion && decide (1 ≤ h.length.toNat) && decide (h.length.toNat ≤ p.maxPayload.toNat) &&
      decide (d.length < h.length.toNat)
  | .chk h d _ =>
    h.version == p.protoVersion && decide (h.length.toNat ≤ p.maxPayload.toNat) && decide (d.length = h.length.toNat)

/-- R29 for TXS: `rem` is 1..255. -/
def txWf : TxState → Bool
  | .idle => true
  | .pay rem _ => decide (1 ≤ rem.toNat)

/-- The invariants of both framers (R25, R29). -/
abbrev FramersWf (s : State) : Prop := rxWf s.params s.rxs = true ∧ txWf s.txs = true

/-- R29's reading of TxPay against the bytes `tx` already given to the transmitter: they end in a marker, a header and
the payload sent so far; `rem` more are to come; `crc` is the CRC-16 of the bytes sent after the marker. -/
def OpenFrameMatches (p : Params) (tx : List Byte) : TxState → Prop
  | .idle => True
  | .pay rem crc => ∃ (before : List Byte) (h : Header) (sent : List Byte),
      tx = before ++ [0xAA#8, 0x55#8] ++ h.bytes ++ sent ∧ h.version = p.protoVersion ∧
      sent.length + rem.toNat = h.length.toNat ∧ 1 ≤ rem.toNat ∧ crc = crc16 (h.bytes ++ sent)

/-! ### Which events belong to which part of the block (R71) -/

/-- RX.BYTE, the receive framer's only operation. -/
def isRxOp : Instr → Bool
  | .rxByte _ => true
  | .nop _ | .crcInit _ | .crcByte _ | .txType _ | .txSeq _ | .txLen _ | .txData _ | .rd _ | .reserved _ _ => false

/-- CRC.INIT and CRC.BYTE. -/
def isCrcOp : Instr → Bool
  | .crcInit _ | .crcByte _ => true
  | .nop _ | .rxByte _ | .txType _ | .txSeq _ | .txLen _ | .txData _ | .rd _ | .reserved _ _ => false

/-- The four TX operations. -/
def isTxOp : Instr → Bool
  | .txType _ | .txSeq _ | .txLen _ | .txData _ => true
  | .nop _ | .crcInit _ | .crcByte _ | .rxByte _ | .rd _ | .reserved _ _ => false

/-- What a part of the block sees of an event: reset (`some none`), an operation of its own, or nothing. -/
def partView (own : Instr → Bool) (e : Event) : Option (Option Instr) :=
  match e.action with
  | .reset => some none
  | .run i => if own i then some (some i) else none
  | .idle => none

/-- The operand of a CRC.BYTE. -/
def crcOperand (e : Event) : Option Byte :=
  match e.action with
  | .run (.crcByte b) => some b
  | _ => none

/-- The operand of a TX.DATA. -/
def dataOperand (e : Event) : Option Byte :=
  match e.action with
  | .run (.txData b) => some b
  | _ => none

/-- The event sets CRC to its initial value: CRC.INIT or reset. -/
def restartsCrc (e : Event) : Bool :=
  match e.action with
  | .reset => true
  | .run (.crcInit _) => true
  | _ => false

/-- The event is a TX.LEN or a reset. -/
def opensOrResets (e : Event) : Bool :=
  match e.action with
  | .reset => true
  | .run (.txLen _) => true
  | _ => false

/-! ### The incremental receiver (R221) -/

/-- RXS with the running CRC-16 of the header and payload bytes taken so far. -/
inductive IncState where
  | scan (sawAA : Bool)
  | hdr (h : List Byte) (c : Halfword)
  | pay (h : Header) (d : List Byte) (c : Halfword)
  | chk (h : Header) (d : List Byte) (c : Halfword) (lo : Option Byte)
deriving DecidableEq, Repr

/-- What one byte brings out of a receiver: the frame if one is emitted, and which counter counts. -/
structure RxReport where
  frame : Option Frame := none
  hdrErr : Bool := false
  crcErr : Bool := false
deriving DecidableEq, Repr

/-- One byte through the incremental receiver: one crcStep per header and payload byte, none at the end (R221). -/
def incStep (p : Params) (x : IncState) (b : Byte) : IncState × RxReport :=
  match x with
  | .scan a => (if a = true ∧ b = 0x55#8 then .hdr [] 0xFFFF#16 else .scan (b == 0xAA#8), {})
  | .hdr h c =>
    match h ++ [b] with
    | v :: t :: q :: n :: _ =>
      if v ≠ p.protoVersion ∨ p.maxPayload < n then (.scan false, { hdrErr := true })
      else if n = 0#8 then (.chk ⟨v, t, q, n⟩ [] (crcStep c b) none, {})
      else (.pay ⟨v, t, q, n⟩ [] (crcStep c b), {})
    | h' => (.hdr h' (crcStep c b), {})
  | .pay h d c =>
    if d.length + 1 = h.length.toNat then (.chk h (d ++ [b]) (crcStep c b) none, {})
    else (.pay h (d ++ [b]) (crcStep c b), {})
  | .chk h d c none => (.chk h d c (some b), {})
  | .chk h d c (some lo) =>
    if b ++ lo = c then (.scan false, { frame := some ⟨h.version, h.msgType, h.seq, h.length, d, c⟩ })
    else (.scan false, { crcErr := true })

/-- A byte stream through the incremental receiver: its last state and one report per byte. -/
def incRun (p : Params) : IncState → List Byte → IncState × List RxReport
  | x, [] => (x, [])
  | x, b :: bs =>
    let (x', r) := incStep p x b
    let (x'', rs) := incRun p x' bs
    (x'', r :: rs)

/-- A byte stream through `rxStep` (R150), in the same form. -/
def rxRun (p : Params) : RxState → List Byte → RxState × List RxReport
  | r, [] => (r, [])
  | r, b :: bs =>
    let x := rxStep p r b
    let (r'', rs) := rxRun p x.rxs bs
    (r'', { frame := x.frame, hdrErr := x.hdrErr, crcErr := x.crcErr } :: rs)

/-- RXS with the running CRC the incremental receiver would hold there. -/
def withRunningCrc : RxState → IncState
  | .scan a => .scan a
  | .hdr h => .hdr h (crc16 h)
  | .pay h d => .pay h d (crc16 (h.bytes ++ d))
  | .chk h d lo => .chk h d (crc16 (h.bytes ++ d)) lo

end Sys2Proof
end

