-- ==== Sys2Proof/Certificates/Slice0/Obligations.lean ====
section
/-! DEFINITION. What is claimed of the block, rule by rule. -/

open Sys2Proof Sys2Proof.Machine

/-! ### Reset -/

/-- R40: every component at reset, and what RD reads there; for every instance. -/
def Obligations.ResetStateIsTheTable : Prop :=
  State.reset = State.resetFor { protoVersion := 0x01#8, maxPayload := 0xFF#8 } ∧
  ∀ p : Params,
    let s := State.resetFor p
    let reads := fun (i : Byte) (v : Halfword) => exec (.rd i) s = .next { s with out := { rd := some v } }
    s.params = p ∧ s.crc = 0xFFFF#16 ∧ s.rxs = .scan false ∧ s.hdrErr = 0#16 ∧ s.crcErr = 0#16 ∧
    s.txType = 0#8 ∧ s.txSeq = 0#8 ∧ s.txs = .idle ∧ s.illCmd = false ∧ s.txErr = false ∧
    reads 0x00#8 0xFFFF#16 ∧ reads 0x01#8 0#16 ∧ reads 0x02#8 0#16 ∧ reads 0x03#8 0#16 ∧ reads 0x04#8 0#16 ∧
    reads 0x05#8 (p.maxPayload ++ p.protoVersion) ∧ reads 0x06#8 0#16

/-- R210: the reset event, from any state, sets the nine components to R40 and puts nothing out. -/
def Obligations.ResetEventRestoresTheTable : Prop :=
  ∀ (s : State) (es : List Event), s.pending = .reset :: es →
    step s = .next { params := s.params, crc := 0xFFFF#16, rxs := .scan false, hdrErr := 0#16, crcErr := 0#16,
                     txType := 0#8, txSeq := 0#8, txs := .idle, illCmd := false, txErr := false,
                     out := { tx := [], frame := none, rd := none }, pending := es, run := s.run }

/-! ### The operations one by one -/

/-- R180. The equality is also the frame: the output record is cleared and every other field stays. -/
def Obligations.NopHasNoEffect : Prop :=
  ∀ (s : State) (imm : Byte),
    decodeWord (0x00#8 ++ imm) = .nop imm ∧ exec (.nop imm) s = .next { s with out := Output.none }

/-- R111. -/
def Obligations.CrcInitLoadsTheInitialValue : Prop :=
  ∀ (s : State) (imm : Byte),
    decodeWord (0x01#8 ++ imm) = .crcInit imm ∧
    exec (.crcInit imm) s = .next { s with crc := 0xFFFF#16, out := Output.none }

/-- The operation of R112, with the values its corner cases and example give. (Its general remark that a zero byte changes
every nonzero CRC does not follow from R110: see `ZeroByteFixesTwoCrcValues` and log 13.) -/
def Obligations.CrcByteFoldsOneByte : Prop :=
  (∀ (s : State) (b : Byte),
    decodeWord (0x02#8 ++ b) = .crcByte b ∧
    exec (.crcByte b) s = .next { s with crc := crcStep s.crc b, out := Output.none }) ∧
  crcStep 0xFFFF#16 0x00#8 = 0xE1F0#16 ∧ crcStep 0x0000#16 0x00#8 = 0x0000#16 ∧
  crcStep 0xFFFF#16 0xFF#8 = 0xFF00#16 ∧ crcStep 0xFFFF#16 0x01#8 = 0xF1D1#16

/-- R150 and its table R166: each row of the table as the whole next state, then the operation for every state through
`rxStep`. The received checksum is the second byte above the first (R158). -/
def Obligations.RxByteFollowsTheTransitionTable : Prop :=
  ∀ (s : State) (b : Byte),
    let goes := fun (r : RxState) => exec (.rxByte b) s = .next { s with rxs := r, out := Output.none }
    decodeWord (0x10#8 ++ b) = .rxByte b ∧
    (s.rxs = .scan true → b = 0x55#8 → goes (.hdr [])) ∧
    (∀ a, s.rxs = .scan a → b = 0xAA#8 → goes (.scan true)) ∧
    (s.rxs = .scan false → b = 0x55#8 → goes (.scan false)) ∧
    (∀ a, s.rxs = .scan a → b ≠ 0x55#8 → b ≠ 0xAA#8 → goes (.scan false)) ∧
    (∀ h, s.rxs = .hdr h → h.length < 3 → goes (.hdr (h ++ [b]))) ∧
    (∀ v t q, s.rxs = .hdr [v, t, q] → v ≠ s.params.protoVersion ∨ s.params.maxPayload < b →
      exec (.rxByte b) s = .next { s with rxs := .scan false, hdrErr := s.hdrErr + 1#16, out := Output.none }) ∧
    (∀ v t q, s.rxs = .hdr [v, t, q] → v = s.params.protoVersion → b = 0#8 → goes (.chk ⟨v, t, q, b⟩ [] none)) ∧
    (∀ v t q, s.rxs = .hdr [v, t, q] → v = s.params.protoVersion → 0#8 < b → b ≤ s.params.maxPayload →
      goes (.pay ⟨v, t, q, b⟩ [])) ∧
    (∀ h d, s.rxs = .pay h d → d.length + 1 ≠ h.length.toNat → goes (.pay h (d ++ [b]))) ∧
    (∀ h d, s.rxs = .pay h d → d.length + 1 = h.length.toNat → goes (.chk h (d ++ [b]) none)) ∧
    (∀ h d, s.rxs = .chk h d none → goes (.chk h d (some b))) ∧
    (∀ h d lo, s.rxs = .chk h d (some lo) →
      b ++ lo = crc16 ([h.version, h.msgType, h.seq, h.length] ++ d) →
      exec (.rxByte b) s = .next { s with rxs := .scan false, out := { frame := some {
        version := h.version, msgType := h.msgType, seq := h.seq, length := h.length, payload := d,
        checksum := b ++ lo } } }) ∧
    (∀ h d lo, s.rxs = .chk h d (some lo) →
      b ++ lo ≠ crc16 ([h.version, h.msgType, h.seq, h.length] ++ d) →
      exec (.rxByte b) s = .next { s with rxs := .scan false, crcErr := s.crcErr + 1#16, out := Output.none }) ∧
    exec (.rxByte b) s = .next { s with
      rxs := (rxStep s.params s.rxs b).rxs
      hdrErr := if (rxStep s.params s.rxs b).hdrErr = true then s.hdrErr + 1#16 else s.hdrErr
      crcErr := if (rxStep s.params s.rxs b).crcErr = true then s.crcErr + 1#16 else s.crcErr
      out := { frame := (rxStep s.params s.rxs b).frame } }

/-- R131, in either state of the transmit framer. -/
def Obligations.TxTypeLatchesTheMessageType : Prop :=
  ∀ (s : State) (t : Byte),
    decodeWord (0x20#8 ++ t) = .txType t ∧ exec (.txType t) s = .next { s with txType := t, out := Output.none }

/-- R132, in either state of the transmit framer. -/
def Obligations.TxSeqLatchesTheSequenceNumber : Prop :=
  ∀ (s : State) (q : Byte),
    decodeWord (0x21#8 ++ q) = .txSeq q ∧ exec (.txSeq q) s = .next { s with txSeq := q, out := Output.none }

/-- R133: a whole frame for n = 0, marker and header for the other lengths, TXERR when a frame is open. -/
def Obligations.TxLenStartsAFrame : Prop :=
  ∀ (s : State) (n : Byte),
    let c := crc16 [s.params.protoVersion, s.txType, s.txSeq, n]
    let start := [0xAA#8, 0x55#8, s.params.protoVersion, s.txType, s.txSeq, n]
    decodeWord (0x22#8 ++ n) = .txLen n ∧
    (s.txs = .idle → n = 0#8 →
      exec (.txLen n) s = .next { s with out := { tx := start ++ [c.setWidth 8, (c >>> 8).setWidth 8] } }) ∧
    (s.txs = .idle → n ≠ 0#8 → exec (.txLen n) s = .next { s with txs := .pay n c, out := { tx := start } }) ∧
    (∀ rem c', s.txs = .pay rem c' → exec (.txLen n) s = .next { s with txErr := true, out := Output.none })

/-- R134: one payload byte, the checksum after the last, TXERR when no frame is open. -/
def Obligations.TxDataSendsOnePayloadByte : Prop :=
  ∀ (s : State) (b : Byte),
    decodeWord (0x23#8 ++ b) = .txData b ∧
    (s.txs = .idle → exec (.txData b) s = .next { s with txErr := true, out := Output.none }) ∧
    (∀ rem c, s.txs = .pay rem c → rem = 1#8 →
      exec (.txData b) s = .next { s with txs := .idle, out := { tx :=
        [b, (crcStep c b).setWidth 8, (crcStep c b >>> 8).setWidth 8] } }) ∧
    (∀ rem c, s.txs = .pay rem c → rem ≠ 1#8 →
      exec (.txData b) s = .next { s with txs := .pay (rem - 1#8) (crcStep c b), out := { tx := [b] } })

/-- R181, with the fields of STATUS (R33) and CONFIG (R34) in place. STATUS is written from bit 15 down to bit 0. -/
def Obligations.RdReturnsTheRegister : Prop :=
  ∀ s : State,
    let reads := fun (i : Byte) (v : Halfword) => exec (.rd i) s = .next { s with out := { rd := some v } }
    let rxst : BitVec 2 := match s.rxs with
      | .scan _ => 0#2
      | .hdr _ => 1#2
      | .pay _ _ => 2#2
      | .chk _ _ _ => 3#2
    let rxaa := decide (s.rxs = .scan true)
    let txbusy := decide (s.txs ≠ .idle)
    (∀ i : Byte, decodeWord (0x30#8 ++ i) = .rd i) ∧
    reads 0x00#8 s.crc ∧
    reads 0x01#8 (0#10 ++ BitVec.ofBool s.txErr ++ BitVec.ofBool s.illCmd ++ BitVec.ofBool txbusy ++
      BitVec.ofBool rxaa ++ rxst) ∧
    reads 0x02#8 s.hdrErr ∧ reads 0x03#8 s.crcErr ∧
    (s.txs = .idle → reads 0x04#8 0#16) ∧
    (∀ rem c, s.txs = .pay rem c → reads 0x04#8 (0#8 ++ rem)) ∧
    reads 0x05#8 (s.params.maxPayload ++ s.params.protoVersion) ∧
    reads 0x06#8 (s.txSeq ++ s.txType) ∧
    (∀ i : Byte, 0x06#8 < i → reads i 0#16)

/-- R183 for the 247 reserved opcodes and every operand byte. -/
def Obligations.ReservedWordOnlySetsIllcmd : Prop :=
  ∀ (s : State) (opc imm : Byte),
    (0x03#8 ≤ opc ∧ opc ≤ 0x0F#8) ∨ (0x11#8 ≤ opc ∧ opc ≤ 0x1F#8) ∨ (0x24#8 ≤ opc ∧ opc ≤ 0x2F#8) ∨ 0x31#8 ≤ opc →
    decodeWord (opc ++ imm) = .reserved opc imm ∧
    exec (.reserved opc imm) s = .next { s with illCmd := true, out := Output.none }

/-! ### Encoding -/

/-- R92 and R93: the opcode map, every operand byte included, and nothing else is defined: a word's operation is
reserved exactly when its opcode is none of the nine. -/
def Obligations.OpcodeMapIsExact : Prop :=
  (∀ b : Byte,
    decodeWord (0x00#8 ++ b) = .nop b ∧ decodeWord (0x01#8 ++ b) = .crcInit b ∧
    decodeWord (0x02#8 ++ b) = .crcByte b ∧ decodeWord (0x10#8 ++ b) = .rxByte b ∧
    decodeWord (0x20#8 ++ b) = .txType b ∧ decodeWord (0x21#8 ++ b) = .txSeq b ∧
    decodeWord (0x22#8 ++ b) = .txLen b ∧ decodeWord (0x23#8 ++ b) = .txData b ∧ decodeWord (0x30#8 ++ b) = .rd b) ∧
  (∀ w : Halfword, (∃ o b, decodeWord w = .reserved o b) ↔
    (w >>> 8).setWidth 8 ∉ [0x00#8, 0x01#8, 0x02#8, 0x10#8, 0x20#8, 0x21#8, 0x22#8, 0x23#8, 0x30#8])

/-- The words R96 writes out, and the reserved ones of 95_test_vectors.md V-CTL-11 (a sanity statement). -/
def Obligations.WrittenOutWordsDecode : Prop :=
  decodeWord 0x0100#16 = .crcInit 0x00#8 ∧ decodeWord 0x01FF#16 = .crcInit 0xFF#8 ∧
  decodeWord 0x023F#16 = .crcByte 0x3F#8 ∧ decodeWord 0x10AA#16 = .rxByte 0xAA#8 ∧
  decodeWord 0x2001#16 = .txType 0x01#8 ∧ decodeWord 0x2100#16 = .txSeq 0x00#8 ∧
  decodeWord 0x2206#16 = .txLen 0x06#8 ∧ decodeWord 0x23E0#16 = .txData 0xE0#8 ∧
  decodeWord 0x3003#16 = .rd 0x03#8 ∧ decodeWord 0x4000#16 = .reserved 0x40#8 0x00#8 ∧
  decodeWord 0x0000#16 = .nop 0x00#8 ∧ decodeWord 0x1100#16 = .reserved 0x11#8 0x00#8

/-- No bit of an operation is dropped by its command word: for every well-formed operation, all operand bytes. -/
def Obligations.DecodeInvertsEncode : Prop :=
  ∀ i : Instr, i.wf = true → decodeWord (encode i) = i

/-- Every word has one reading: it decodes to a well-formed operation whose command word it is. -/
def Obligations.EncodeInvertsDecode : Prop :=
  ∀ w : Halfword, (decodeWord w).wf = true ∧ encode (decodeWord w) = w

/-- A command as R94 writes it assembles to its own command word (`(OPC << 8) | imm`); what the text form leaves open is
the model's choice (log 10). -/
def Obligations.AssemblerReadsWhatItWrites : Prop :=
  ∀ i : Instr, i.wf = true → assembleLine (commandText i) = some [encode i]

/-! ### Steps and runs -/

/-- A step with a command word pending performs exactly the operation it decodes to, on the state with that event taken,
and adds the output record to the run's streams (R21, R12, R222; the streams are the model's, log 3). -/
def Obligations.StepRunsTheDecodedCommand : Prop :=
  ∀ (s : State) (w : Halfword) (i : Instr) (es : List Event),
    s.pending = .cmd w :: es → decodeWord w = i → i.wf = true →
    step s = match exec i { s with pending := es } with
      | .next t => .next { t with run := { tx := t.run.tx ++ t.out.tx, frames := t.run.frames ++ t.out.frame.toList,
                                           reads := t.run.reads ++ t.out.rd.toList } }
      | .fault f => .fault f
      | .refused r => .refused r

/-- A byte from the UART receiver has the effect of an RX.BYTE the host issues (R22, R198). -/
def Obligations.ReceivedByteActsAsRxByte : Prop :=
  ∀ (s : State) (b : Byte) (es : List Event),
    step { s with pending := .rx b :: es } = step { s with pending := .cmd (0x10#8 ++ b) :: es }

/-- With no event pending the block keeps its state; the step itself is the model's choice (log 2). -/
def Obligations.IdleStepKeepsTheState : Prop :=
  ∀ s : State, s.pending = [] → step s = .next { s with out := Output.none }

/-- R222: every run has an end; nothing faults or is turned away; the run's streams are the outputs of its events in
order; the parameters stay. The streams and the queue of pending events are the model's own fields (logs 1 and 3). No
number of steps from any state stops either. -/
def Obligations.EveryRunCompletes : Prop :=
  (∀ (es : List Event) (s : State), ∃ t, runEvents es s = .next t ∧ t.params = s.params ∧ t.pending = s.pending ∧
    ∃ outs : List Output, outs.length = es.length ∧
      t.run.tx = s.run.tx ++ outs.flatMap (·.tx) ∧
      t.run.frames = s.run.frames ++ outs.filterMap (·.frame) ∧
      t.run.reads = s.run.reads ++ outs.filterMap (·.rd) ∧
      ∀ k < es.length, ∃ u, runEvents (es.take (k + 1)) s = .next u ∧ outs[k]? = some u.out) ∧
  (∀ (k : Nat) (s : State), ∃ t, Host.Core.run core k s = .next t)

/-! ### The CRC function -/

/-- R110: the step is eight turns of the rule's loop after the byte is folded in at bits 15..8; and it is the serial
form, bit 7 of the byte first and bit 0 last. -/
def Obligations.CrcStepIsTheMsbFirstLoop : Prop :=
  ∀ (c : Halfword) (b : Byte),
    crcStep c b =
      (fun c : Halfword => if c.getLsbD 15 = true then (c <<< 1) ^^^ 0x1021#16 else c <<< 1)^[8] (c ^^^ (b ++ 0#8)) ∧
    crcStep c b = [7, 6, 5, 4, 3, 2, 1, 0].foldl (fun (c : Halfword) (k : Nat) =>
      if c.getLsbD 15 ≠ b.getLsbD k then (c <<< 1) ^^^ 0x1021#16 else c <<< 1) c

/-- What R110 makes of a zero byte: it leaves exactly two values of the register as they are, 0x0000 and 0xF01F. R112's
corner case names only the first (log 13). -/
def Obligations.ZeroByteFixesTwoCrcValues : Prop :=
  ∀ c : Halfword, crcStep c 0x00#8 = c ↔ c = 0x0000#16 ∨ c = 0xF01F#16

/-- R114, laws (a) to (g). -/
def Obligations.CrcFunctionLaws : Prop :=
  crc16 [] = 0xFFFF#16 ∧
  (∀ xs b, crc16 (xs ++ [b]) = crcStep (crc16 xs) b) ∧
  (∀ xs ys, crc16 (xs ++ ys) = ys.foldl crcStep (crc16 xs)) ∧
  crcStep 0x0000#16 0x00#8 = 0x0000#16 ∧
  (∀ c₁ c₂ b₁ b₂, crcStep (c₁ ^^^ c₂) (b₁ ^^^ b₂) = crcStep c₁ b₁ ^^^ crcStep c₂ b₂) ∧
  (∀ b, crcStep 0#16 b = 0#16 → b = 0#8) ∧ (∀ d, crcStep d 0#8 = 0#16 → d = 0#16) ∧
  (∀ c b₁ b₂, crcStep c b₁ = crcStep c b₂ → b₁ = b₂) ∧ (∀ b c₁ c₂, crcStep c₁ b = crcStep c₂ b → c₁ = c₂) ∧
  (∀ xs b₁ b₂ ys, b₁ ≠ b₂ → crc16 (xs ++ [b₁] ++ ys) ≠ crc16 (xs ++ [b₂] ++ ys))

/-- The residue of 95_test_vectors.md V-CRC-19, for every sequence: followed by its checksum high byte first, it has
checksum zero. -/
def Obligations.CrcResidueIsZero : Prop :=
  ∀ xs : List Byte, crc16 (xs ++ [(crc16 xs >>> 8).setWidth 8, (crc16 xs).setWidth 8]) = 0#16

/-- R116, with any other operations in between; and its CRC.BLOCK. -/
def Obligations.CrcRegisterHoldsTheRangeChecksum : Prop :=
  (∀ (s : State) (start : Event) (es : List Event),
    restartsCrc start = true → (∀ e ∈ es, restartsCrc e = false) →
    ∃ t, runEvents (start :: es) s = .next t ∧ t.crc = crc16 (es.filterMap crcOperand)) ∧
  (∀ (s : State) (bs : List Byte), ∃ t, runEvents ((crcBlock bs).map host) s = .next t ∧ t.crc = crc16 bs)

/-! ### The frame on the wire -/

/-- R80: the layout of an encoded frame, offset by offset, and its length. -/
def Obligations.EncodedFrameHasTheWireLayout : Prop :=
  ∀ (p : Params) (t q : Byte) (pl : List Byte), pl.length ≤ 255 →
    let f := encodeFrame p t q pl
    let n := pl.length
    let c := crc16 ((f.drop 2).take (4 + n))
    f.length = 8 + n ∧ f[0]? = some 0xAA#8 ∧ f[1]? = some 0x55#8 ∧ f[2]? = some p.protoVersion ∧ f[3]? = some t ∧
    f[4]? = some q ∧ f[5]? = some (BitVec.ofNat 8 n) ∧ (f.drop 6).take n = pl ∧
    f[6 + n]? = some (c.setWidth 8) ∧ f[7 + n]? = some ((c >>> 8).setWidth 8)

/-- R62 and R65: low byte first on the wire, and the two bytes make the value again. -/
def Obligations.ChecksumIsLittleEndian : Prop :=
  (∀ c : Halfword, checksumBytes c = [c.setWidth 8, (c >>> 8).setWidth 8]) ∧
  (∀ lo hi : Byte, pairLE lo hi = hi ++ lo ∧ checksumBytes (pairLE lo hi) = [lo, hi]) ∧
  (∀ c : Halfword, ∀ lo hi : Byte, checksumBytes c = [lo, hi] → pairLE lo hi = c)

/-- R135: the transmit sequence emits exactly `encode(t, s, pl)` of R130, ends idle and sets no sticky bit, whatever
operations other than TX.LEN and TX.DATA stand between its TX.DATA. -/
def Obligations.TransmitSequenceEmitsEncode : Prop :=
  ∀ (s : State) (t q : Byte) (pl : List Byte) (rest : List Event),
    s.txs = .idle → pl.length ≤ 255 →
    (∀ e ∈ rest, opensOrResets e = false) → rest.filterMap dataOperand = pl →
    let body := [s.params.protoVersion, t, q, BitVec.ofNat 8 pl.length] ++ pl
    let c := crc16 body
    ∃ u, runEvents (host (.txType t) :: host (.txSeq q) :: host (.txLen (BitVec.ofNat 8 pl.length)) :: rest) s
        = .next u ∧
      u.run.tx = s.run.tx ++ ([0xAA#8, 0x55#8] ++ body ++ [c.setWidth 8, (c >>> 8).setWidth 8]) ∧
      u.txs = .idle ∧ u.txErr = s.txErr ∧
      ((∀ e ∈ rest, ∀ o b, e.instr ≠ some (.reserved o b)) → u.illCmd = s.illCmd)

/-- R138: TX.LEN does not look at MAX_PAYLOAD, and a receiver with the same parameters discards the oversized frame
with one header error at its sixth byte. -/
def Obligations.TransmitIgnoresTheMaximum : Prop :=
  (∀ (s : State) (n m : Byte) (t : State), exec (.txLen n) s = .next t →
    exec (.txLen n) { s with params := { s.params with maxPayload := m } }
      = .next { t with params := { t.params with maxPayload := m } }) ∧
  (∀ (s : State) (a : Bool) (t q : Byte) (pl : List Byte),
    s.rxs = .scan a → s.params.maxPayload.toNat < pl.length → pl.length ≤ 255 →
    ∃ u, runEvents (((encodeFrame s.params t q pl).take 6).map Event.rx) s = .next u ∧
      u.rxs = .scan false ∧ u.hdrErr = s.hdrErr + 1#16 ∧ u.crcErr = s.crcErr ∧ u.run.frames = s.run.frames)

/-- The round trip at the framing level (95_test_vectors.md W3): a receiver fed an encoded frame emits that frame, on
its last byte, and counts nothing. -/
def Obligations.ReceiverRecoversTheEncodedFrame : Prop :=
  ∀ (s : State) (a : Bool) (t q : Byte) (pl : List Byte),
    s.rxs = .scan a → pl.length ≤ s.params.maxPayload.toNat →
    let f : Frame := { version := s.params.protoVersion, msgType := t, seq := q, length := BitVec.ofNat 8 pl.length,
                       payload := pl,
                       checksum := crc16 ([s.params.protoVersion, t, q, BitVec.ofNat 8 pl.length] ++ pl) }
    ∃ u, runEvents ((encodeFrame s.params t q pl).map Event.rx) s = .next u ∧
      u.out.frame = some f ∧ u.run.frames = s.run.frames ++ [f] ∧ u.rxs = .scan false ∧
      u.hdrErr = s.hdrErr ∧ u.crcErr = s.crcErr

/-- R162: a frame with one flipped payload byte, then a valid frame: one checksum error, one frame, no byte lost. -/
def Obligations.ResyncAfterAFlippedPayloadByte : Prop :=
  ∀ (s : State) (a : Bool) (t₁ q₁ t₂ q₂ : Byte) (pl₁ pl₂ : List Byte) (k : Nat) (x : Byte),
    s.rxs = .scan a → pl₁.length ≤ s.params.maxPayload.toNat → pl₂.length ≤ s.params.maxPayload.toNat →
    k < pl₁.length → pl₁[k]? ≠ some x →
    let bad := (encodeFrame s.params t₁ q₁ pl₁).set (6 + k) x
    let good := encodeFrame s.params t₂ q₂ pl₂
    ∃ u, runEvents ((bad ++ good).map Event.rx) s = .next u ∧
      u.crcErr = s.crcErr + 1#16 ∧ u.hdrErr = s.hdrErr ∧ u.rxs = .scan false ∧
      u.run.frames = s.run.frames ++ [{
        version := s.params.protoVersion, msgType := t₂, seq := q₂, length := BitVec.ofNat 8 pl₂.length, payload := pl₂,
        checksum := crc16 ([s.params.protoVersion, t₂, q₂, BitVec.ofNat 8 pl₂.length] ++ pl₂) }]

/-! ### Invariants -/

/-- R25 (and the range of `rem` in R29): every event keeps them, from every state that has them. -/
def Obligations.StepKeepsTheFramersWellFormed : Prop :=
  ∀ s t : State, FramersWf s → step s = .next t → FramersWf t

/-- The reset state of every instance has the invariants of R25 and R29. -/
def Obligations.ResetHasTheFramersWellFormed : Prop :=
  ∀ p : Params, FramersWf (State.resetFor p)

/-- R29: while a frame is open, the bytes given to the transmitter end in its marker, header and payload so far, and
`crc` is their CRC-16. Every step keeps this, and it holds at reset. -/
def Obligations.OpenFrameTracksTheTransmittedBytes : Prop :=
  (∀ s t : State, OpenFrameMatches s.params s.run.tx s.txs → step s = .next t →
    OpenFrameMatches t.params t.run.tx t.txs) ∧
  (∀ p : Params, OpenFrameMatches p (State.resetFor p).run.tx (State.resetFor p).txs)

/-! ### Independence of the parts (R71, R117) -/

/-- The receive framer's state, counters and frames depend only on the RX.BYTE operands and resets of a run, however
other operations are interleaved. -/
def Obligations.ReceiveDependsOnlyOnReceivedBytes : Prop :=
  ∀ (s₁ s₂ : State) (es₁ es₂ : List Event),
    s₁.params = s₂.params → s₁.rxs = s₂.rxs → s₁.hdrErr = s₂.hdrErr → s₁.crcErr = s₂.crcErr →
    es₁.filterMap (partView isRxOp) = es₂.filterMap (partView isRxOp) →
    ∃ t₁ t₂ fs, runEvents es₁ s₁ = .next t₁ ∧ runEvents es₂ s₂ = .next t₂ ∧
      t₁.rxs = t₂.rxs ∧ t₁.hdrErr = t₂.hdrErr ∧ t₁.crcErr = t₂.crcErr ∧
      t₁.run.frames = s₁.run.frames ++ fs ∧ t₂.run.frames = s₂.run.frames ++ fs

/-- The CRC register depends only on the CRC operations and resets of a run. -/
def Obligations.CrcDependsOnlyOnCrcOperations : Prop :=
  ∀ (s₁ s₂ : State) (es₁ es₂ : List Event),
    s₁.crc = s₂.crc → es₁.filterMap (partView isCrcOp) = es₂.filterMap (partView isCrcOp) →
    ∃ t₁ t₂, runEvents es₁ s₁ = .next t₁ ∧ runEvents es₂ s₂ = .next t₂ ∧ t₁.crc = t₂.crc

/-- The transmit framer's state, latches, error bit and bytes depend only on the TX operations and resets of a run. -/
def Obligations.TransmitDependsOnlyOnTxOperations : Prop :=
  ∀ (s₁ s₂ : State) (es₁ es₂ : List Event),
    s₁.params = s₂.params → s₁.txs = s₂.txs → s₁.txType = s₂.txType → s₁.txSeq = s₂.txSeq → s₁.txErr = s₂.txErr →
    es₁.filterMap (partView isTxOp) = es₂.filterMap (partView isTxOp) →
    ∃ t₁ t₂ bs, runEvents es₁ s₁ = .next t₁ ∧ runEvents es₂ s₂ = .next t₂ ∧
      t₁.txs = t₂.txs ∧ t₁.txType = t₂.txType ∧ t₁.txSeq = t₂.txSeq ∧ t₁.txErr = t₂.txErr ∧
      t₁.run.tx = s₁.run.tx ++ bs ∧ t₂.run.tx = s₂.run.tx ++ bs

/-- A received byte and a host operation other than RX.BYTE and RD may change places: only the latest output record
tells the two orders apart. -/
def Obligations.ReceptionCommutesWithHostOperations : Prop :=
  ∀ (s : State) (b : Byte) (w : Halfword),
    isRxOp (decodeWord w) = false → (∀ i, decodeWord w ≠ .rd i) →
    ∃ t u, runEvents [.rx b, .cmd w] s = .next t ∧ runEvents [.cmd w, .rx b] s = .next u ∧ u = { t with out := u.out }

/-- R117: the framers neither read nor write CRC; the CRC operations neither read nor write RXS, TXS, the counters or
the latches. -/
def Obligations.CrcRegisterIsIndependent : Prop :=
  (∀ (i : Instr) (s t : State) (c : Halfword),
    (∃ b, i = .rxByte b ∨ i = .txLen b ∨ i = .txData b) → exec i s = .next t →
    t.crc = s.crc ∧ exec i { s with crc := c } = .next { t with crc := c }) ∧
  (∀ (i : Instr) (s t u : State), isCrcOp i = true → exec i s = .next t →
    t.rxs = s.rxs ∧ t.txs = s.txs ∧ t.hdrErr = s.hdrErr ∧ t.crcErr = s.crcErr ∧ t.txType = s.txType ∧ t.txSeq = s.txSeq ∧
    exec i { s with rxs := u.rxs, txs := u.txs, hdrErr := u.hdrErr, crcErr := u.crcErr, txType := u.txType, txSeq := u.txSeq }
      = .next { t with rxs := u.rxs, txs := u.txs, hdrErr := u.hdrErr, crcErr := u.crcErr, txType := u.txType, txSeq := u.txSeq })

/-- R136 as log 14 reads it: changing the latches changes nothing an operation does, but for TX.LEN, a read of TX_HDR, and the latching
operations' own writes. -/
def Obligations.LatchesAreReadOnlyByTxLen : Prop :=
  ∀ (i : Instr) (s t : State) (x y : Byte),
    (∀ n, i ≠ .txLen n) → i ≠ .rd 0x06#8 → exec i s = .next t →
    ∃ x' y', exec i { s with txType := x, txSeq := y } = .next { t with txType := x', txSeq := y' } ∧
      (x' = x ∨ i = .txType x') ∧ (y' = y ∨ i = .txSeq y')

/-! ### Flags, counters, outputs -/

/-- R30: when each sticky bit is set, that nothing but reset clears it, and where it is read. -/
def Obligations.StickyBitsAreSetAndHeld : Prop :=
  ∀ (s : State) (e : Event) (es : List Event), s.pending = e :: es →
    ∃ t, step s = .next t ∧
      (e = .reset → t.illCmd = false ∧ t.txErr = false) ∧
      (e ≠ .reset →
        (t.illCmd = true ↔ s.illCmd = true ∨ ∃ w : Halfword, e = .cmd w ∧ reservedOpcode ((w >>> 8).setWidth 8) = true) ∧
        (t.txErr = true ↔ s.txErr = true ∨ (∃ n, e.instr = some (.txLen n) ∧ s.txs ≠ .idle) ∨
          (∃ b, e.instr = some (.txData b) ∧ s.txs = .idle))) ∧
      (∃ v, exec (.rd 0x01#8) s = .next { s with out := { rd := some v } } ∧
        v.getLsbD 4 = s.illCmd ∧ v.getLsbD 5 = s.txErr)

/-- R26 and R27: each counter counts exactly its own discards, by one modulo 2^16, is cleared by reset alone, and reads
at its index. -/
def Obligations.ErrorCountersCountDiscards : Prop :=
  ∀ (s : State) (e : Event) (es : List Event), FramersWf s → s.pending = e :: es →
    let headerDiscard := ∃ b v t q, e.instr = some (.rxByte b) ∧ s.rxs = .hdr [v, t, q] ∧
      (v ≠ s.params.protoVersion ∨ s.params.maxPayload < b)
    let checksumDiscard := ∃ b h d lo, e.instr = some (.rxByte b) ∧ s.rxs = .chk h d (some lo) ∧
      b ++ lo ≠ crc16 (h.bytes ++ d)
    ∃ u, step s = .next u ∧
      (e = .reset → u.hdrErr = 0#16 ∧ u.crcErr = 0#16) ∧
      (headerDiscard → u.hdrErr = s.hdrErr + 1#16) ∧ (¬ headerDiscard → e ≠ .reset → u.hdrErr = s.hdrErr) ∧
      (checksumDiscard → u.crcErr = s.crcErr + 1#16) ∧ (¬ checksumDiscard → e ≠ .reset → u.crcErr = s.crcErr) ∧
      exec (.rd 0x02#8) s = .next { s with out := { rd := some s.hdrErr } } ∧
      exec (.rd 0x03#8) s = .next { s with out := { rd := some s.crcErr } }

/-- R194: a received byte counts one error of one kind, or emits a frame, or neither; TX.LEN and TX.DATA set TXERR or
emit bytes, never both. -/
def Obligations.OneOutcomePerOperation : Prop :=
  (∀ (s t : State) (b : Byte), exec (.rxByte b) s = .next t →
    (t.hdrErr = s.hdrErr ∧ t.crcErr = s.crcErr) ∨
    (t.hdrErr = s.hdrErr + 1#16 ∧ t.crcErr = s.crcErr ∧ t.out.frame = none) ∨
    (t.hdrErr = s.hdrErr ∧ t.crcErr = s.crcErr + 1#16 ∧ t.out.frame = none)) ∧
  (∀ (s t : State) (i : Instr), (∃ n, i = .txLen n ∨ i = .txData n) → exec i s = .next t →
    (t.out.tx = [] ∧ t.txErr = true) ∨ (t.out.tx ≠ [] ∧ t.txErr = s.txErr))

/-- R164 and the return to scanning of R161: a byte that emits no frame changes RXS and at most one counter and nothing
else; after every discard and every frame the framer is in Scan(false). -/
def Obligations.DiscardsOnlyCountAndRescan : Prop :=
  ∀ (s t : State) (b : Byte), exec (.rxByte b) s = .next t →
    (t.out.frame = none → t = { s with rxs := t.rxs, hdrErr := t.hdrErr, crcErr := t.crcErr, out := Output.none }) ∧
    (t.hdrErr = s.hdrErr ∨ t.crcErr = s.crcErr) ∧
    (t.hdrErr ≠ s.hdrErr ∨ t.crcErr ≠ s.crcErr ∨ t.out.frame ≠ none → t.rxs = .scan false)

/-- What a frame that comes out has passed (R31, R158, R160), and all it has passed (R165): its type, its sequence number
and its payload's meaning are not looked at. -/
def Obligations.EmittedFramesAreValid : Prop :=
  ∀ (s t : State) (f : Frame), FramersWf s → step s = .next t → t.out.frame = some f →
    f.version = s.params.protoVersion ∧ f.length ≤ s.params.maxPayload ∧ f.payload.length = f.length.toNat ∧
    f.checksum = crc16 ([f.version, f.msgType, f.seq, f.length] ++ f.payload) ∧
    t.run.frames = s.run.frames ++ [f]

/-- R139: while no reset comes, an open frame stays open until as many TX.DATA as it still needs have come; the last of
them closes it; and reset abandons it with nothing more put out. -/
def Obligations.OpenFrameEndsOnlyByItsData : Prop :=
  (∀ (s : State) (rem : Byte) (c : Halfword) (es : List Event),
    s.txs = .pay rem c → (∀ e ∈ es, e ≠ .reset) →
    let sent := es.filterMap dataOperand
    ∃ t, runEvents es s = .next t ∧
      (sent.length < rem.toNat →
        t.txs = .pay (BitVec.ofNat 8 (rem.toNat - sent.length)) (sent.foldl crcStep c) ∧ t.run.tx = s.run.tx ++ sent) ∧
      (sent.length = rem.toNat → (∃ e ∈ es.getLast?, dataOperand e ≠ none) → t.txs = .idle)) ∧
  (∀ (s : State) (rem : Byte) (c : Halfword), s.txs = .pay rem c →
    ∃ t, runEvents [.reset] s = .next t ∧ t.txs = .idle ∧ t.run.tx = s.run.tx)

/-- The "written by" column of R32: a component changes only at reset or by the operations listed for it. -/
def Obligations.StateHasOnlyItsWriters : Prop :=
  ∀ (s t : State) (e : Event) (es : List Event), s.pending = e :: es → step s = .next t → e ≠ .reset →
    (t.crc ≠ s.crc → ∃ i, e.instr = some i ∧ isCrcOp i = true) ∧
    (t.rxs ≠ s.rxs ∨ t.hdrErr ≠ s.hdrErr ∨ t.crcErr ≠ s.crcErr → ∃ b, e.instr = some (.rxByte b)) ∧
    (t.txs ≠ s.txs → ∃ b, e.instr = some (.txLen b) ∨ e.instr = some (.txData b)) ∧
    (t.txType ≠ s.txType → e.instr = some (.txType t.txType)) ∧
    (t.txSeq ≠ s.txSeq → e.instr = some (.txSeq t.txSeq)) ∧
    t.params = s.params

/-- Tx bytes come only from TX.LEN (at most 8) and TX.DATA (at most 3), a frame only from RX.BYTE, read data from RD and
from nothing else (R12, R67). -/
def Obligations.OutputsComeOnlyFromTheirOperations : Prop :=
  ∀ (s : State) (i : Instr), ∃ t, exec i s = .next t ∧
    (t.out.tx ≠ [] → (∃ n, i = .txLen n ∧ t.out.tx.length ≤ 8) ∨ (∃ b, i = .txData b ∧ t.out.tx.length ≤ 3)) ∧
    (t.out.frame ≠ none → ∃ b, i = .rxByte b) ∧
    (t.out.rd ≠ none ↔ ∃ k, i = .rd k)

/-- R68 for RD: nothing but the output record changes, and a second read gives the same value. -/
def Obligations.ReadsHaveNoSideEffect : Prop :=
  ∀ (s : State) (i : Byte), ∃ (v : Halfword) (t : State),
    exec (.rd i) s = .next { s with out := { rd := some v } } ∧
    runEvents [host (.rd i), host (.rd i)] s = .next t ∧
    t = { s with out := { rd := some v }, run := { s.run with reads := s.run.reads ++ [v, v] } }

/-! ### How long reception takes -/

/-- R167: a frame is consumed in exactly 8+n bytes from its last 0xAA before 0x55, one with a bad header in exactly 6,
whatever 0xAA came before; nothing comes out and nothing is counted before the last of them. -/
def Obligations.FramesTakeTheirByteCount : Prop :=
  ∀ (s : State) (a : Bool) (j : Nat) (v t q n : Byte) (pl : List Byte) (x y : Byte),
    s.rxs = .scan a →
    let lead := List.replicate j 0xAA#8
    let head := [0xAA#8, 0x55#8, v, t, q, n]
    let bad := v ≠ s.params.protoVersion ∨ s.params.maxPayload < n
    let quietAt := fun (bs : List Byte) (k : Nat) => ∃ u, runEvents ((bs.take (j + k)).map Event.rx) s = .next u ∧
      (∀ a', u.rxs ≠ .scan a') ∧ u.hdrErr = s.hdrErr ∧ u.crcErr = s.crcErr ∧ u.run.frames = s.run.frames
    (bad →
      (∀ k, 2 ≤ k → k < 6 → quietAt (lead ++ head) k) ∧
      ∃ u, runEvents ((lead ++ head).map Event.rx) s = .next u ∧ u.rxs = .scan false ∧
        u.hdrErr = s.hdrErr + 1#16 ∧ u.crcErr = s.crcErr ∧ u.run.frames = s.run.frames) ∧
    (¬ bad → pl.length = n.toNat →
      (∀ k, 2 ≤ k → k < 8 + n.toNat → quietAt (lead ++ head ++ pl ++ [x, y]) k) ∧
      ∃ u, runEvents ((lead ++ head ++ pl ++ [x, y]).map Event.rx) s = .next u ∧ u.rxs = .scan false ∧
        u.hdrErr = s.hdrErr ∧
        ((u.crcErr = s.crcErr + 1#16 ∧ u.run.frames = s.run.frames) ∨
          (u.crcErr = s.crcErr ∧ ∃ f, u.run.frames = s.run.frames ++ [f])))

/-- R218's bound: whatever comes, the framer scans again after at most MAX_PAYLOAD payload bytes and 2 checksum bytes
once the header is in, and after at most 4 more from any point of a header. -/
def Obligations.ReceiverScansAgainWithinTheBound : Prop :=
  ∀ (s : State) (bs : List Byte), FramersWf s →
    let bound := s.params.maxPayload.toNat + 2
    let scansWithin := fun (k : Nat) => ∃ j ≤ k, ∃ u a, runEvents ((bs.take j).map Event.rx) s = .next u ∧ u.rxs = .scan a
    ((∃ h d, s.rxs = .pay h d) ∨ (∃ h d lo, s.rxs = .chk h d lo) → bound ≤ bs.length → scansWithin bound) ∧
    (bound + 4 ≤ bs.length → scansWithin (bound + 4))

/-- R221: a receiver that folds each header and payload byte into a running CRC as it comes gives, byte for byte, the
same frames and errors as `rxStep`, and stays in step with it. -/
def Obligations.IncrementalChecksumGivesTheSameResults : Prop :=
  ∀ (p : Params) (r : RxState) (bs : List Byte), rxWf p r = true →
    incRun p (withRunningCrc r) bs = (withRunningCrc (rxRun p r bs).1, (rxRun p r bs).2)
end

