-- ==== Sys2Proof/Laws/Bits.lean ====
section
/-! SUPPORT. The bit helpers of R9 and R65 as concatenation, and that taking a checksum apart and putting it together
undo each other. -/

namespace Sys2Proof.Machine

/-- Bit `k` of a halfword made of two bytes. -/
theorem append_getLsbD (hi lo : Byte) (k : Nat) :
    (hi ++ lo : Halfword).getLsbD k = if k < 8 then lo.getLsbD k else hi.getLsbD (k - 8) := by
  have := BitVec.getLsbD_append (x := hi) (y := lo) (i := k)
  simpa [Bool.cond_eq_ite] using this

theorem lo8_eq_setWidth (h : Halfword) : lo8 h = h.setWidth 8 := by
  ext k hk; simp [lo8]

theorem hi8_eq_shift (h : Halfword) : hi8 h = (h >>> 8).setWidth 8 := by
  ext k hk; simp [hi8]

theorem zext16_shift_eq_append (b : Byte) : zext16 b <<< 8 = b ++ 0#8 := by
  apply BitVec.eq_of_getLsbD_eq
  intro k hk
  rw [append_getLsbD]
  by_cases h : k < 8 <;> simp [zext16, h, hk]

theorem zext16_eq_append (b : Byte) : zext16 b = 0#8 ++ b := by
  apply BitVec.eq_of_getLsbD_eq
  intro k hk
  rw [append_getLsbD]
  by_cases h : k < 8
  · simp [zext16, h, hk]
  · simp [zext16, h, BitVec.getLsbD_of_ge b k (by omega)]

theorem pairLE_eq_append (lo hi : Byte) : pairLE lo hi = hi ++ lo := by
  apply BitVec.eq_of_getLsbD_eq
  intro k hk
  rw [pairLE, zext16_shift_eq_append, zext16_eq_append, BitVec.getLsbD_or, append_getLsbD, append_getLsbD,
    append_getLsbD]
  by_cases h : k < 8 <;> simp [h]

@[simp] theorem lo8_append (hi lo : Byte) : lo8 (hi ++ lo) = lo := by
  apply BitVec.eq_of_getLsbD_eq
  intro k hk
  simp only [lo8, BitVec.getLsbD_extractLsb', append_getLsbD]
  simp [hk]

@[simp] theorem hi8_append (hi lo : Byte) : hi8 (hi ++ lo) = hi := by
  apply BitVec.eq_of_getLsbD_eq
  intro k hk
  simp only [hi8, BitVec.getLsbD_extractLsb', append_getLsbD]
  simp [hk]

theorem hi8_append_lo8 (h : Halfword) : hi8 h ++ lo8 h = h := by
  apply BitVec.eq_of_getLsbD_eq
  intro k hk
  rw [append_getLsbD]
  by_cases h' : k < 8
  · simp [lo8, h']
  · simp [hi8, h', show k - 8 < 8 by omega, show 8 + (k - 8) = k by omega]

@[simp] theorem pairLE_lo8_hi8 (h : Halfword) : pairLE (lo8 h) (hi8 h) = h := by
  rw [pairLE_eq_append, hi8_append_lo8]

end Sys2Proof.Machine
end

