-- ==== Sys2Proof/Laws/Crc.lean ====
section
/-! SUPPORT. One turn of R110's loop: it is exclusive-or linear, and it loses nothing, since the bit shifted out is the
low bit of the result. -/

namespace Sys2Proof.Machine

/-- Bit `k` after one turn: the bit below, and the polynomial's bit if bit 15 was set. -/
theorem crcBit_getLsbD (c : Halfword) (k : Nat) (hk : k < 16) :
    (crcBit c).getLsbD k = ((decide (1 ≤ k) && c.getLsbD (k - 1)) ^^ (c.getLsbD 15 && crcPoly.getLsbD k)) := by
  unfold crcBit
  cases k with
  | zero => cases h : c.getLsbD 15 <;> simp
  | succ k => cases h : c.getLsbD 15 <;> simp [hk, BitVec.getLsbD_eq_getElem (show k < 16 by omega)]

theorem crcBit_xor (a c : Halfword) : crcBit (a ^^^ c) = crcBit a ^^^ crcBit c := by
  apply BitVec.eq_of_getLsbD_eq
  intro k hk
  simp only [crcBit_getLsbD _ k hk, BitVec.getLsbD_xor]
  cases decide (1 ≤ k) <;> cases a.getLsbD (k - 1) <;> cases c.getLsbD (k - 1) <;> cases a.getLsbD 15 <;>
    cases c.getLsbD 15 <;> cases crcPoly.getLsbD k <;> rfl

/-- The bit shifted out is bit 0 of the result. -/
theorem crcBit_low (c : Halfword) : (crcBit c).getLsbD 0 = c.getLsbD 15 := by
  rw [crcBit_getLsbD c 0 (by omega)]
  simp [crcPoly]

theorem crcBit_injective (a c : Halfword) (h : crcBit a = crcBit c) : a = c := by
  have h15 : a.getLsbD 15 = c.getLsbD 15 := by rw [← crcBit_low, ← crcBit_low, h]
  apply BitVec.eq_of_getLsbD_eq
  intro k hk
  rcases Nat.lt_or_ge k 15 with hk' | hk'
  · have hb := congrArg (fun x => BitVec.getLsbD x (k + 1)) h
    simp only [crcBit_getLsbD _ (k + 1) (by omega), h15] at hb
    simpa using hb
  · obtain rfl : k = 15 := by omega
    exact h15

/-- `n` turns after a first one. -/
theorem crcBits_add (n m : Nat) (c : Halfword) : crcBits (n + m) c = crcBits m (crcBits n c) := by
  induction n generalizing c with
  | zero => simp [crcBits]
  | succ n ih => rw [Nat.add_right_comm]; exact ih (crcBit c)

theorem crcBits_xor (n : Nat) (a c : Halfword) : crcBits n (a ^^^ c) = crcBits n a ^^^ crcBits n c := by
  induction n generalizing a c with
  | zero => rfl
  | succ n ih => simp only [crcBits, crcBit_xor, ih]

theorem crcBits_injective (n : Nat) (a c : Halfword) (h : crcBits n a = crcBits n c) : a = c := by
  induction n generalizing a c with
  | zero => exact h
  | succ n ih => exact crcBit_injective a c (ih _ _ h)

end Sys2Proof.Machine
end

