-- ==== Sys2Proof/Laws/Encoding.lean ====
section
/-! SUPPORT. The two fields of a command word (R90), and the nine opcodes against the reserved ranges (R92, R93). -/

namespace Sys2Proof

open Machine

@[simp] theorem opcodeField_append (opc imm : Byte) : opcodeField (opc ++ imm) = opc := hi8_append opc imm

@[simp] theorem immField_append (opc imm : Byte) : immField (opc ++ imm) = imm := lo8_append opc imm

/-- A word made of its two fields decodes by them. -/
@[simp] theorem decodeWord_append (opc imm : Byte) : decodeWord (opc ++ imm) = decodeFields opc imm := by
  rw [decodeWord, opcodeField_append, immField_append]

theorem opcodeField_append_immField (w : Halfword) : opcodeField w ++ immField w = w := hi8_append_lo8 w

theorem opcodeField_eq_shift (w : Halfword) : opcodeField w = (w >>> 8).setWidth 8 := hi8_eq_shift w

/-- An opcode is one of the nine of R92 or lies in one of the ranges of R93. -/
theorem opcode_defined_or_reserved (opc : Byte) :
    opc ∈ [0x00#8, 0x01#8, 0x02#8, 0x10#8, 0x20#8, 0x21#8, 0x22#8, 0x23#8, 0x30#8] ↔ reservedOpcode opc = false := by
  revert opc; decide

end Sys2Proof
end

