-- ==== Sys2Proof/Laws/PerInstr.lean ====
section
/-! SUPPORT. Statements about every operation as syntax, one lemma per constructor. -/

namespace Sys2Proof.Laws.EncodingFields

open Sys2Proof

/-- The command word of `i` holds its opcode in bits 15:8 and its operand byte in bits 7:0 (R90, R94). -/
def Statement (i : Instr) : Prop := opcodeField (encode i) = i.opcode ∧ immField (encode i) = i.imm

theorem fields (i : Instr) : Statement i := ⟨opcodeField_append _ _, immField_append _ _⟩

theorem nop (imm : Byte) : Statement (.nop imm) := fields _
theorem crcInit (imm : Byte) : Statement (.crcInit imm) := fields _
theorem crcByte (b : Byte) : Statement (.crcByte b) := fields _
theorem rxByte (b : Byte) : Statement (.rxByte b) := fields _
theorem txType (t : Byte) : Statement (.txType t) := fields _
theorem txSeq (q : Byte) : Statement (.txSeq q) := fields _
theorem txLen (n : Byte) : Statement (.txLen n) := fields _
theorem txData (b : Byte) : Statement (.txData b) := fields _
theorem rd (i : Byte) : Statement (.rd i) := fields _
theorem reserved (opc imm : Byte) : Statement (.reserved opc imm) := fields _

end Sys2Proof.Laws.EncodingFields
end

