-- ==== Sys2Proof/Laws/State.lean ====
section
/-! SUPPORT. What each state write does to each field: one lemma per field per update, each true by `rfl`. -/

namespace Sys2Proof.Machine

variable (s : State)

/-! ### setCrc -/

@[simp] theorem State.setCrc_params (v : Halfword) : (s.setCrc v).params = s.params := rfl
@[simp] theorem State.setCrc_crc (v : Halfword) : (s.setCrc v).crc = v := rfl
@[simp] theorem State.setCrc_rxs (v : Halfword) : (s.setCrc v).rxs = s.rxs := rfl
@[simp] theorem State.setCrc_hdrErr (v : Halfword) : (s.setCrc v).hdrErr = s.hdrErr := rfl
@[simp] theorem State.setCrc_crcErr (v : Halfword) : (s.setCrc v).crcErr = s.crcErr := rfl
@[simp] theorem State.setCrc_txType (v : Halfword) : (s.setCrc v).txType = s.txType := rfl
@[simp] theorem State.setCrc_txSeq (v : Halfword) : (s.setCrc v).txSeq = s.txSeq := rfl
@[simp] theorem State.setCrc_txs (v : Halfword) : (s.setCrc v).txs = s.txs := rfl
@[simp] theorem State.setCrc_illCmd (v : Halfword) : (s.setCrc v).illCmd = s.illCmd := rfl
@[simp] theorem State.setCrc_txErr (v : Halfword) : (s.setCrc v).txErr = s.txErr := rfl
@[simp] theorem State.setCrc_out (v : Halfword) : (s.setCrc v).out = s.out := rfl
@[simp] theorem State.setCrc_pending (v : Halfword) : (s.setCrc v).pending = s.pending := rfl
@[simp] theorem State.setCrc_run (v : Halfword) : (s.setCrc v).run = s.run := rfl

/-! ### setRxs -/

@[simp] theorem State.setRxs_params (r : RxState) : (s.setRxs r).params = s.params := rfl
@[simp] theorem State.setRxs_crc (r : RxState) : (s.setRxs r).crc = s.crc := rfl
@[simp] theorem State.setRxs_rxs (r : RxState) : (s.setRxs r).rxs = r := rfl
@[simp] theorem State.setRxs_hdrErr (r : RxState) : (s.setRxs r).hdrErr = s.hdrErr := rfl
@[simp] theorem State.setRxs_crcErr (r : RxState) : (s.setRxs r).crcErr = s.crcErr := rfl
@[simp] theorem State.setRxs_txType (r : RxState) : (s.setRxs r).txType = s.txType := rfl
@[simp] theorem State.setRxs_txSeq (r : RxState) : (s.setRxs r).txSeq = s.txSeq := rfl
@[simp] theorem State.setRxs_txs (r : RxState) : (s.setRxs r).txs = s.txs := rfl
@[simp] theorem State.setRxs_illCmd (r : RxState) : (s.setRxs r).illCmd = s.illCmd := rfl
@[simp] theorem State.setRxs_txErr (r : RxState) : (s.setRxs r).txErr = s.txErr := rfl
@[simp] theorem State.setRxs_out (r : RxState) : (s.setRxs r).out = s.out := rfl
@[simp] theorem State.setRxs_pending (r : RxState) : (s.setRxs r).pending = s.pending := rfl
@[simp] theorem State.setRxs_run (r : RxState) : (s.setRxs r).run = s.run := rfl

/-! ### setTxType -/

@[simp] theorem State.setTxType_params (t : Byte) : (s.setTxType t).params = s.params := rfl
@[simp] theorem State.setTxType_crc (t : Byte) : (s.setTxType t).crc = s.crc := rfl
@[simp] theorem State.setTxType_rxs (t : Byte) : (s.setTxType t).rxs = s.rxs := rfl
@[simp] theorem State.setTxType_hdrErr (t : Byte) : (s.setTxType t).hdrErr = s.hdrErr := rfl
@[simp] theorem State.setTxType_crcErr (t : Byte) : (s.setTxType t).crcErr = s.crcErr := rfl
@[simp] theorem State.setTxType_txType (t : Byte) : (s.setTxType t).txType = t := rfl
@[simp] theorem State.setTxType_txSeq (t : Byte) : (s.setTxType t).txSeq = s.txSeq := rfl
@[simp] theorem State.setTxType_txs (t : Byte) : (s.setTxType t).txs = s.txs := rfl
@[simp] theorem State.setTxType_illCmd (t : Byte) : (s.setTxType t).illCmd = s.illCmd := rfl
@[simp] theorem State.setTxType_txErr (t : Byte) : (s.setTxType t).txErr = s.txErr := rfl
@[simp] theorem State.setTxType_out (t : Byte) : (s.setTxType t).out = s.out := rfl
@[simp] theorem State.setTxType_pending (t : Byte) : (s.setTxType t).pending = s.pending := rfl
@[simp] theorem State.setTxType_run (t : Byte) : (s.setTxType t).run = s.run := rfl

/-! ### setTxSeq -/

@[simp] theorem State.setTxSeq_params (q : Byte) : (s.setTxSeq q).params = s.params := rfl
@[simp] theorem State.setTxSeq_crc (q : Byte) : (s.setTxSeq q).crc = s.crc := rfl
@[simp] theorem State.setTxSeq_rxs (q : Byte) : (s.setTxSeq q).rxs = s.rxs := rfl
@[simp] theorem State.setTxSeq_hdrErr (q : Byte) : (s.setTxSeq q).hdrErr = s.hdrErr := rfl
@[simp] theorem State.setTxSeq_crcErr (q : Byte) : (s.setTxSeq q).crcErr = s.crcErr := rfl
@[simp] theorem State.setTxSeq_txType (q : Byte) : (s.setTxSeq q).txType = s.txType := rfl
@[simp] theorem State.setTxSeq_txSeq (q : Byte) : (s.setTxSeq q).txSeq = q := rfl
@[simp] theorem State.setTxSeq_txs (q : Byte) : (s.setTxSeq q).txs = s.txs := rfl
@[simp] theorem State.setTxSeq_illCmd (q : Byte) : (s.setTxSeq q).illCmd = s.illCmd := rfl
@[simp] theorem State.setTxSeq_txErr (q : Byte) : (s.setTxSeq q).txErr = s.txErr := rfl
@[simp] theorem State.setTxSeq_out (q : Byte) : (s.setTxSeq q).out = s.out := rfl
@[simp] theorem State.setTxSeq_pending (q : Byte) : (s.setTxSeq q).pending = s.pending := rfl
@[simp] theorem State.setTxSeq_run (q : Byte) : (s.setTxSeq q).run = s.run := rfl

/-! ### setTxs -/

@[simp] theorem State.setTxs_params (x : TxState) : (s.setTxs x).params = s.params := rfl
@[simp] theorem State.setTxs_crc (x : TxState) : (s.setTxs x).crc = s.crc := rfl
@[simp] theorem State.setTxs_rxs (x : TxState) : (s.setTxs x).rxs = s.rxs := rfl
@[simp] theorem State.setTxs_hdrErr (x : TxState) : (s.setTxs x).hdrErr = s.hdrErr := rfl
@[simp] theorem State.setTxs_crcErr (x : TxState) : (s.setTxs x).crcErr = s.crcErr := rfl
@[simp] theorem State.setTxs_txType (x : TxState) : (s.setTxs x).txType = s.txType := rfl
@[simp] theorem State.setTxs_txSeq (x : TxState) : (s.setTxs x).txSeq = s.txSeq := rfl
@[simp] theorem State.setTxs_txs (x : TxState) : (s.setTxs x).txs = x := rfl
@[simp] theorem State.setTxs_illCmd (x : TxState) : (s.setTxs x).illCmd = s.illCmd := rfl
@[simp] theorem State.setTxs_txErr (x : TxState) : (s.setTxs x).txErr = s.txErr := rfl
@[simp] theorem State.setTxs_out (x : TxState) : (s.setTxs x).out = s.out := rfl
@[simp] theorem State.setTxs_pending (x : TxState) : (s.setTxs x).pending = s.pending := rfl
@[simp] theorem State.setTxs_run (x : TxState) : (s.setTxs x).run = s.run := rfl

/-! ### emit -/

@[simp] theorem State.emit_params (o : Output) : (s.emit o).params = s.params := rfl
@[simp] theorem State.emit_crc (o : Output) : (s.emit o).crc = s.crc := rfl
@[simp] theorem State.emit_rxs (o : Output) : (s.emit o).rxs = s.rxs := rfl
@[simp] theorem State.emit_hdrErr (o : Output) : (s.emit o).hdrErr = s.hdrErr := rfl
@[simp] theorem State.emit_crcErr (o : Output) : (s.emit o).crcErr = s.crcErr := rfl
@[simp] theorem State.emit_txType (o : Output) : (s.emit o).txType = s.txType := rfl
@[simp] theorem State.emit_txSeq (o : Output) : (s.emit o).txSeq = s.txSeq := rfl
@[simp] theorem State.emit_txs (o : Output) : (s.emit o).txs = s.txs := rfl
@[simp] theorem State.emit_illCmd (o : Output) : (s.emit o).illCmd = s.illCmd := rfl
@[simp] theorem State.emit_txErr (o : Output) : (s.emit o).txErr = s.txErr := rfl
@[simp] theorem State.emit_out (o : Output) : (s.emit o).out = o := rfl
@[simp] theorem State.emit_pending (o : Output) : (s.emit o).pending = s.pending := rfl
@[simp] theorem State.emit_run (o : Output) : (s.emit o).run = s.run := rfl

/-! ### countHdrErr -/

@[simp] theorem State.countHdrErr_params (e : Bool) : (s.countHdrErr e).params = s.params := rfl
@[simp] theorem State.countHdrErr_crc (e : Bool) : (s.countHdrErr e).crc = s.crc := rfl
@[simp] theorem State.countHdrErr_rxs (e : Bool) : (s.countHdrErr e).rxs = s.rxs := rfl
@[simp] theorem State.countHdrErr_hdrErr (e : Bool) : (s.countHdrErr e).hdrErr = if e then s.hdrErr + 1#16 else s.hdrErr := rfl
@[simp] theorem State.countHdrErr_crcErr (e : Bool) : (s.countHdrErr e).crcErr = s.crcErr := rfl
@[simp] theorem State.countHdrErr_txType (e : Bool) : (s.countHdrErr e).txType = s.txType := rfl
@[simp] theorem State.countHdrErr_txSeq (e : Bool) : (s.countHdrErr e).txSeq = s.txSeq := rfl
@[simp] theorem State.countHdrErr_txs (e : Bool) : (s.countHdrErr e).txs = s.txs := rfl
@[simp] theorem State.countHdrErr_illCmd (e : Bool) : (s.countHdrErr e).illCmd = s.illCmd := rfl
@[simp] theorem State.countHdrErr_txErr (e : Bool) : (s.countHdrErr e).txErr = s.txErr := rfl
@[simp] theorem State.countHdrErr_out (e : Bool) : (s.countHdrErr e).out = s.out := rfl
@[simp] theorem State.countHdrErr_pending (e : Bool) : (s.countHdrErr e).pending = s.pending := rfl
@[simp] theorem State.countHdrErr_run (e : Bool) : (s.countHdrErr e).run = s.run := rfl

/-! ### countCrcErr -/

@[simp] theorem State.countCrcErr_params (e : Bool) : (s.countCrcErr e).params = s.params := rfl
@[simp] theorem State.countCrcErr_crc (e : Bool) : (s.countCrcErr e).crc = s.crc := rfl
@[simp] theorem State.countCrcErr_rxs (e : Bool) : (s.countCrcErr e).rxs = s.rxs := rfl
@[simp] theorem State.countCrcErr_hdrErr (e : Bool) : (s.countCrcErr e).hdrErr = s.hdrErr := rfl
@[simp] theorem State.countCrcErr_crcErr (e : Bool) : (s.countCrcErr e).crcErr = if e then s.crcErr + 1#16 else s.crcErr := rfl
@[simp] theorem State.countCrcErr_txType (e : Bool) : (s.countCrcErr e).txType = s.txType := rfl
@[simp] theorem State.countCrcErr_txSeq (e : Bool) : (s.countCrcErr e).txSeq = s.txSeq := rfl
@[simp] theorem State.countCrcErr_txs (e : Bool) : (s.countCrcErr e).txs = s.txs := rfl
@[simp] theorem State.countCrcErr_illCmd (e : Bool) : (s.countCrcErr e).illCmd = s.illCmd := rfl
@[simp] theorem State.countCrcErr_txErr (e : Bool) : (s.countCrcErr e).txErr = s.txErr := rfl
@[simp] theorem State.countCrcErr_out (e : Bool) : (s.countCrcErr e).out = s.out := rfl
@[simp] theorem State.countCrcErr_pending (e : Bool) : (s.countCrcErr e).pending = s.pending := rfl
@[simp] theorem State.countCrcErr_run (e : Bool) : (s.countCrcErr e).run = s.run := rfl

/-! ### raiseTxErr -/

@[simp] theorem State.raiseTxErr_params : (s.raiseTxErr).params = s.params := rfl
@[simp] theorem State.raiseTxErr_crc : (s.raiseTxErr).crc = s.crc := rfl
@[simp] theorem State.raiseTxErr_rxs : (s.raiseTxErr).rxs = s.rxs := rfl
@[simp] theorem State.raiseTxErr_hdrErr : (s.raiseTxErr).hdrErr = s.hdrErr := rfl
@[simp] theorem State.raiseTxErr_crcErr : (s.raiseTxErr).crcErr = s.crcErr := rfl
@[simp] theorem State.raiseTxErr_txType : (s.raiseTxErr).txType = s.txType := rfl
@[simp] theorem State.raiseTxErr_txSeq : (s.raiseTxErr).txSeq = s.txSeq := rfl
@[simp] theorem State.raiseTxErr_txs : (s.raiseTxErr).txs = s.txs := rfl
@[simp] theorem State.raiseTxErr_illCmd : (s.raiseTxErr).illCmd = s.illCmd := rfl
@[simp] theorem State.raiseTxErr_txErr : (s.raiseTxErr).txErr = true := rfl
@[simp] theorem State.raiseTxErr_out : (s.raiseTxErr).out = s.out := rfl
@[simp] theorem State.raiseTxErr_pending : (s.raiseTxErr).pending = s.pending := rfl
@[simp] theorem State.raiseTxErr_run : (s.raiseTxErr).run = s.run := rfl

/-! ### raiseIllCmd -/

@[simp] theorem State.raiseIllCmd_params : (s.raiseIllCmd).params = s.params := rfl
@[simp] theorem State.raiseIllCmd_crc : (s.raiseIllCmd).crc = s.crc := rfl
@[simp] theorem State.raiseIllCmd_rxs : (s.raiseIllCmd).rxs = s.rxs := rfl
@[simp] theorem State.raiseIllCmd_hdrErr : (s.raiseIllCmd).hdrErr = s.hdrErr := rfl
@[simp] theorem State.raiseIllCmd_crcErr : (s.raiseIllCmd).crcErr = s.crcErr := rfl
@[simp] theorem State.raiseIllCmd_txType : (s.raiseIllCmd).txType = s.txType := rfl
@[simp] theorem State.raiseIllCmd_txSeq : (s.raiseIllCmd).txSeq = s.txSeq := rfl
@[simp] theorem State.raiseIllCmd_txs : (s.raiseIllCmd).txs = s.txs := rfl
@[simp] theorem State.raiseIllCmd_illCmd : (s.raiseIllCmd).illCmd = true := rfl
@[simp] theorem State.raiseIllCmd_txErr : (s.raiseIllCmd).txErr = s.txErr := rfl
@[simp] theorem State.raiseIllCmd_out : (s.raiseIllCmd).out = s.out := rfl
@[simp] theorem State.raiseIllCmd_pending : (s.raiseIllCmd).pending = s.pending := rfl
@[simp] theorem State.raiseIllCmd_run : (s.raiseIllCmd).run = s.run := rfl

/-! ### present -/

@[simp] theorem State.present_params (es : List Event) : (s.present es).params = s.params := rfl
@[simp] theorem State.present_crc (es : List Event) : (s.present es).crc = s.crc := rfl
@[simp] theorem State.present_rxs (es : List Event) : (s.present es).rxs = s.rxs := rfl
@[simp] theorem State.present_hdrErr (es : List Event) : (s.present es).hdrErr = s.hdrErr := rfl
@[simp] theorem State.present_crcErr (es : List Event) : (s.present es).crcErr = s.crcErr := rfl
@[simp] theorem State.present_txType (es : List Event) : (s.present es).txType = s.txType := rfl
@[simp] theorem State.present_txSeq (es : List Event) : (s.present es).txSeq = s.txSeq := rfl
@[simp] theorem State.present_txs (es : List Event) : (s.present es).txs = s.txs := rfl
@[simp] theorem State.present_illCmd (es : List Event) : (s.present es).illCmd = s.illCmd := rfl
@[simp] theorem State.present_txErr (es : List Event) : (s.present es).txErr = s.txErr := rfl
@[simp] theorem State.present_out (es : List Event) : (s.present es).out = s.out := rfl
@[simp] theorem State.present_pending (es : List Event) : (s.present es).pending = es ++ s.pending := rfl
@[simp] theorem State.present_run (es : List Event) : (s.present es).run = s.run := rfl

/-! ### dropEvent -/

@[simp] theorem State.dropEvent_params : (s.dropEvent).params = s.params := rfl
@[simp] theorem State.dropEvent_crc : (s.dropEvent).crc = s.crc := rfl
@[simp] theorem State.dropEvent_rxs : (s.dropEvent).rxs = s.rxs := rfl
@[simp] theorem State.dropEvent_hdrErr : (s.dropEvent).hdrErr = s.hdrErr := rfl
@[simp] theorem State.dropEvent_crcErr : (s.dropEvent).crcErr = s.crcErr := rfl
@[simp] theorem State.dropEvent_txType : (s.dropEvent).txType = s.txType := rfl
@[simp] theorem State.dropEvent_txSeq : (s.dropEvent).txSeq = s.txSeq := rfl
@[simp] theorem State.dropEvent_txs : (s.dropEvent).txs = s.txs := rfl
@[simp] theorem State.dropEvent_illCmd : (s.dropEvent).illCmd = s.illCmd := rfl
@[simp] theorem State.dropEvent_txErr : (s.dropEvent).txErr = s.txErr := rfl
@[simp] theorem State.dropEvent_out : (s.dropEvent).out = s.out := rfl
@[simp] theorem State.dropEvent_pending : (s.dropEvent).pending = s.pending.tail := rfl
@[simp] theorem State.dropEvent_run : (s.dropEvent).run = s.run := rfl

/-! ### recordOut -/

@[simp] theorem State.recordOut_params : (s.recordOut).params = s.params := rfl
@[simp] theorem State.recordOut_crc : (s.recordOut).crc = s.crc := rfl
@[simp] theorem State.recordOut_rxs : (s.recordOut).rxs = s.rxs := rfl
@[simp] theorem State.recordOut_hdrErr : (s.recordOut).hdrErr = s.hdrErr := rfl
@[simp] theorem State.recordOut_crcErr : (s.recordOut).crcErr = s.crcErr := rfl
@[simp] theorem State.recordOut_txType : (s.recordOut).txType = s.txType := rfl
@[simp] theorem State.recordOut_txSeq : (s.recordOut).txSeq = s.txSeq := rfl
@[simp] theorem State.recordOut_txs : (s.recordOut).txs = s.txs := rfl
@[simp] theorem State.recordOut_illCmd : (s.recordOut).illCmd = s.illCmd := rfl
@[simp] theorem State.recordOut_txErr : (s.recordOut).txErr = s.txErr := rfl
@[simp] theorem State.recordOut_out : (s.recordOut).out = s.out := rfl
@[simp] theorem State.recordOut_pending : (s.recordOut).pending = s.pending := rfl
@[simp] theorem State.recordOut_run : (s.recordOut).run = s.run.record s.out := rfl

/-! ### applyReset -/

@[simp] theorem State.applyReset_params : (s.applyReset).params = s.params := rfl
@[simp] theorem State.applyReset_crc : (s.applyReset).crc = 0xFFFF#16 := rfl
@[simp] theorem State.applyReset_rxs : (s.applyReset).rxs = .scan false := rfl
@[simp] theorem State.applyReset_hdrErr : (s.applyReset).hdrErr = 0#16 := rfl
@[simp] theorem State.applyReset_crcErr : (s.applyReset).crcErr = 0#16 := rfl
@[simp] theorem State.applyReset_txType : (s.applyReset).txType = 0#8 := rfl
@[simp] theorem State.applyReset_txSeq : (s.applyReset).txSeq = 0#8 := rfl
@[simp] theorem State.applyReset_txs : (s.applyReset).txs = .idle := rfl
@[simp] theorem State.applyReset_illCmd : (s.applyReset).illCmd = false := rfl
@[simp] theorem State.applyReset_txErr : (s.applyReset).txErr = false := rfl
@[simp] theorem State.applyReset_out : (s.applyReset).out = Output.none := rfl
@[simp] theorem State.applyReset_pending : (s.applyReset).pending = s.pending := rfl
@[simp] theorem State.applyReset_run : (s.applyReset).run = s.run := rfl

/-! ### Output records -/

@[simp] theorem Output.none_tx : Output.none.tx = [] := rfl
@[simp] theorem Output.none_frame : Output.none.frame = Option.none := rfl
@[simp] theorem Output.none_rd : Output.none.rd = Option.none := rfl
@[simp] theorem Streams.record_tx (r : Streams) (o : Output) : (r.record o).tx = r.tx ++ o.tx := rfl
@[simp] theorem Streams.record_frames (r : Streams) (o : Output) : (r.record o).frames = r.frames ++ o.frame.toList := rfl
@[simp] theorem Streams.record_reads (r : Streams) (o : Output) : (r.record o).reads = r.reads ++ o.rd.toList := rfl

/-- An output record with nothing in it adds nothing to the streams. -/
@[simp] theorem Streams.record_none (r : Streams) : r.record Output.none = r := by simp [Streams.record]

end Sys2Proof.Machine
end

