-- ==== Sys2Proof/Laws/Read.lean ====
section
/-! SUPPORT. What RD can return: the register of each index (R32), and that a read looks at no field of the model's
own. -/

namespace Sys2Proof.Machine

theorem ofIndex_reserved (i : Byte) (h : 6 < i.toNat) : Reg.ofIndex i = .reserved := by
  revert i; decide

/-- Only index 0x06 reads the latches. -/
theorem ofIndex_txHdr (i : Byte) : Reg.ofIndex i = .txHdr ↔ i = 0x06#8 := by
  revert i; decide

theorem readReg_of_environment (s : State) (o : Output) (es : List Event) (r : Streams) (k : Reg) :
    State.readReg { s with out := o, pending := es, run := r } k = s.readReg k := by
  cases k <;> rfl

theorem readReg_config (s : State) : s.readReg .config = s.params.maxPayload ++ s.params.protoVersion :=
  pairLE_eq_append _ _

theorem readReg_txHdr (s : State) : s.readReg .txHdr = s.txSeq ++ s.txType := pairLE_eq_append _ _

end Sys2Proof.Machine
end

