-- ==== Sys2Proof/Laws/Rx.lean ====
section
/-! SUPPORT. What one received byte can do: the table of R166 as equations of `rxStep`, one per row, and one inversion
that names every case. -/

namespace Sys2Proof.Machine

variable (p : Params) (b : Byte)

theorem rxStep_marker : rxStep p (.scan true) 0x55#8 = { rxs := .hdr [] } := rfl

theorem rxStep_scan (a : Bool) (h : ¬(a = true ∧ b = 0x55#8)) :
    rxStep p (.scan a) b = { rxs := .scan (b == 0xAA#8) } := by
  simp only [rxStep, rxScan]
  exact if_neg h

theorem rxStep_hdr_short (h : List Byte) (hl : h.length < 3) : rxStep p (.hdr h) b = { rxs := .hdr (h ++ [b]) } := by
  match h, hl with
  | [], _ => rfl
  | [_], _ => rfl
  | [_, _], _ => rfl

theorem rxStep_hdr_done (v t q : Byte) : rxStep p (.hdr [v, t, q]) b = rxHeaderDone p ⟨v, t, q, b⟩ := rfl

theorem headerBad_iff (h : Header) :
    headerBad p h = true ↔ h.version ≠ p.protoVersion ∨ p.maxPayload < h.length := by
  simp [headerBad, BitVec.lt_def]

theorem rxHeaderDone_bad (h : Header) (hb : headerBad p h = true) :
    rxHeaderDone p h = { rxs := .scan false, hdrErr := true } := by
  simp [rxHeaderDone, hb]

theorem rxHeaderDone_empty (h : Header) (hb : headerBad p h = false) (hn : h.length = 0#8) :
    rxHeaderDone p h = { rxs := .chk h [] none } := by
  simp [rxHeaderDone, hb, hn]

theorem rxHeaderDone_payload (h : Header) (hb : headerBad p h = false) (hn : h.length ≠ 0#8) :
    rxHeaderDone p h = { rxs := .pay h [] } := by
  simp [rxHeaderDone, hb, hn]

theorem rxStep_pay_more (h : Header) (d : List Byte) (hl : d.length + 1 ≠ h.length.toNat) :
    rxStep p (.pay h d) b = { rxs := .pay h (d ++ [b]) } := by
  simp [rxStep, rxPay, hl]

theorem rxStep_pay_last (h : Header) (d : List Byte) (hl : d.length + 1 = h.length.toNat) :
    rxStep p (.pay h d) b = { rxs := .chk h (d ++ [b]) none } := by
  simp [rxStep, rxPay, hl]

theorem rxStep_chk_first (h : Header) (d : List Byte) : rxStep p (.chk h d none) b = { rxs := .chk h d (some b) } := rfl

theorem rxStep_chk_match (h : Header) (d : List Byte) (lo : Byte) (hr : pairLE lo b = frameCrc h d) :
    rxStep p (.chk h d (some lo)) b = { rxs := .scan false, frame := some (h.frame d (pairLE lo b)) } := by
  simp [rxStep, rxVerify, hr]

theorem rxStep_chk_differ (h : Header) (d : List Byte) (lo : Byte) (hr : pairLE lo b ≠ frameCrc h d) :
    rxStep p (.chk h d (some lo)) b = { rxs := .scan false, crcErr := true } := by
  simp [rxStep, rxVerify, hr]

/-- One received byte stays quiet, or discards a header, or discards a frame, or emits one; the last three return to
Scan(false) (R150, R161, R194). -/
theorem rxStep_cases (r : RxState) :
    (∃ r', rxStep p r b = { rxs := r' }) ∨
    (∃ v t q h, r = .hdr h ∧ (h ++ [b]).take 3 = [v, t, q] ∧
      rxStep p r b = { rxs := .scan false, hdrErr := true }) ∨
    (∃ h d lo, r = .chk h d (some lo) ∧ pairLE lo b ≠ frameCrc h d ∧
      rxStep p r b = { rxs := .scan false, crcErr := true }) ∨
    (∃ h d lo, r = .chk h d (some lo) ∧ pairLE lo b = frameCrc h d ∧
      rxStep p r b = { rxs := .scan false, frame := some (h.frame d (pairLE lo b)) }) := by
  match r with
  | .scan a =>
    by_cases h : a = true ∧ b = 0x55#8
    · obtain ⟨rfl, rfl⟩ := h; exact .inl ⟨_, rfl⟩
    · exact .inl ⟨_, rxStep_scan p b a h⟩
  | .hdr h =>
    simp only [rxStep, rxHdr]
    split
    case h_1 v t q n tl heq =>
      by_cases hb : headerBad p ⟨v, t, q, n⟩ = true
      · exact .inr (.inl ⟨v, t, q, h, rfl, by rw [heq]; rfl, rxHeaderDone_bad p _ hb⟩)
      · have hb' := Bool.not_eq_true _ ▸ hb
        by_cases hn : n = 0#8
        · exact .inl ⟨_, rxHeaderDone_empty p _ hb' hn⟩
        · exact .inl ⟨_, rxHeaderDone_payload p _ hb' hn⟩
    case h_2 => exact .inl ⟨_, rfl⟩
  | .pay h d =>
    by_cases hl : d.length + 1 = h.length.toNat
    · exact .inl ⟨_, rxStep_pay_last p b h d hl⟩
    · exact .inl ⟨_, rxStep_pay_more p b h d hl⟩
  | .chk h d none => exact .inl ⟨_, rfl⟩
  | .chk h d (some lo) =>
    by_cases hr : pairLE lo b = frameCrc h d
    · exact .inr (.inr (.inr ⟨h, d, lo, rfl, hr, rxStep_chk_match p b h d lo hr⟩))
    · exact .inr (.inr (.inl ⟨h, d, lo, rfl, hr, rxStep_chk_differ p b h d lo hr⟩))

end Sys2Proof.Machine
end

