-- ==== Sys2Proof/Laws/Step.lean ====
section
/-! SUPPORT. What an operation, an event and a run do, as plain functions of the state: the one place where `exec`,
`step` and `runEvents` are unfolded. Later proofs rewrite with `exec_eq_effect`, `step_of_pending` and `runEvents_eq`. -/

namespace Sys2Proof.Machine

/-- The state an operation leads to. -/
def effect (i : Instr) (s : State) : State :=
  match i with
  | .nop _ => s.emit Output.none
  | .crcInit _ => (s.setCrc crcInitial).emit Output.none
  | .crcByte b => (s.setCrc (crcStep s.crc b)).emit Output.none
  | .rxByte b => s.acceptRx (rxStep s.params s.rxs b)
  | .txType t => (s.setTxType t).emit Output.none
  | .txSeq q => (s.setTxSeq q).emit Output.none
  | .txLen n => match s.txs with
    | .idle => s.startFrame n
    | .pay _ _ => s.txOutOfSequence
  | .txData b => match s.txs with
    | .idle => s.txOutOfSequence
    | .pay rem c => s.sendPayload rem c b
  | .rd k => s.emit { rd := some (s.readReg (Reg.ofIndex k)) }
  | .reserved _ _ => s.raiseIllCmd.emit Output.none

theorem exec_eq_effect (i : Instr) (s : State) : exec i s = .next (effect i s) := by
  cases i with
  | txLen n => cases h : s.txs <;> simp [exec, execTxLen, effect, h]
  | txData b => cases h : s.txs <;> simp [exec, execTxData, effect, h]
  | _ => rfl

/-- No operation touches the instance, the events to come or what the run has given. -/
theorem effect_environment (i : Instr) (s : State) :
    (effect i s).params = s.params ∧ (effect i s).pending = s.pending ∧ (effect i s).run = s.run := by
  cases i with
  | txLen n => simp only [effect, State.startFrame]; split <;> [split; skip] <;> exact ⟨rfl, rfl, rfl⟩
  | txData b => simp only [effect, State.sendPayload]; split <;> [skip; split] <;> exact ⟨rfl, rfl, rfl⟩
  | _ => exact ⟨rfl, rfl, rfl⟩

@[simp] theorem effect_params (i : Instr) (s : State) : (effect i s).params = s.params := (effect_environment i s).1
@[simp] theorem effect_pending (i : Instr) (s : State) : (effect i s).pending = s.pending := (effect_environment i s).2.1
@[simp] theorem effect_run (i : Instr) (s : State) : (effect i s).run = s.run := (effect_environment i s).2.2

/-- An operation does the same whatever is still pending. -/
theorem effect_with_pending (i : Instr) (s : State) (es : List Event) :
    effect i { s with pending := es } = { effect i s with pending := es } := by
  cases i with
  | txLen n =>
    simp only [effect]; split <;> [skip; rfl]
    simp only [State.startFrame]; split <;> rfl
  | txData b =>
    simp only [effect]; split <;> [rfl; skip]
    simp only [State.sendPayload]; split <;> rfl
  | _ => rfl

/-- The state an event leads to, once taken from the pending ones: an operation's effect with its output record added to
the run's streams, or the reset state (R210, R222). -/
def after (e : Event) (s : State) : State :=
  match e.action with
  | .idle => s.emit Output.none
  | .run i => (effect i s).recordOut
  | .reset => s.applyReset

theorem step_of_pending (s : State) (e : Event) (es : List Event) (h : s.pending = e :: es) :
    step s = .next (after e { s with pending := es }) := by
  have hd : s.dropEvent = { s with pending := es } := by simp [State.dropEvent, h]
  simp only [step, State.nextAction, h, hd]
  cases e <;> simp only [Event.action, after, retire, exec_eq_effect]

theorem step_of_idle (s : State) (h : s.pending = []) : step s = .next (s.emit Output.none) := by
  simp [step, State.nextAction, h]

/-- Every step answers a next state: the idle one, or that of its event (R222). -/
theorem step_cases (s : State) :
    (s.pending = [] ∧ step s = .next (s.emit Output.none)) ∨
    (∃ e es, s.pending = e :: es ∧ step s = .next (after e { s with pending := es })) := by
  cases h : s.pending with
  | nil => exact .inl ⟨rfl, step_of_idle s h⟩
  | cons e es => exact .inr ⟨e, es, rfl, step_of_pending s e es h⟩

@[simp] theorem after_pending (e : Event) (s : State) : (after e s).pending = s.pending := by
  cases e <;> simp [after, Event.action]

@[simp] theorem after_params (e : Event) (s : State) : (after e s).params = s.params := by
  cases e <;> simp [after, Event.action]

theorem after_with_pending (e : Event) (s : State) (es : List Event) :
    after e { s with pending := es } = { after e s with pending := es } := by
  cases e <;> simp only [after, Event.action, effect_with_pending] <;> rfl

/-- A run is its events one after another (R222). -/
theorem runEvents_eq (es : List Event) (s : State) :
    runEvents es s = .next (es.foldl (fun u e => after e u) s) := by
  induction es generalizing s with
  | nil => rfl
  | cons e es ih =>
    have hs : step (s.present (e :: es)) = .next ((after e s).present es) := by
      rw [step_of_pending _ e (es ++ s.pending) rfl]
      simp only [State.present, after_with_pending, after_pending]
    have hr : runEvents (e :: es) s = runEvents es (after e s) := by
      simp only [runEvents, List.length_cons, Host.Core.run]
      rw [show core.step (s.present (e :: es)) = .next ((after e s).present es) from hs]
    rw [hr, ih]; rfl

end Sys2Proof.Machine
end

