-- ==== Sys2Proof/Laws/Tx.lean ====
section
/-! SUPPORT. What the two transmit operations can do, one equation per branch of R133 and R134, and the length and the
pieces of an encoded frame (R80, R130). -/

namespace Sys2Proof.Machine

variable (s : State)

/-- A length or a count of payload bytes that is not the byte `k` is not the number `k` either. -/
theorem toNat_ne_of_ne {a k : Byte} (h : a ≠ k) : a.toNat ≠ k.toNat := fun h' => h (BitVec.eq_of_toNat_eq h')

theorem startFrame_empty :
    s.startFrame 0#8 =
      let h := txHeader s.params s.txType s.txSeq 0#8
      s.emit { tx := txPreamble h ++ checksumBytes (frameCrc h []) } := rfl

theorem startFrame_open (n : Byte) (hn : n ≠ 0#8) :
    s.startFrame n = (s.setTxs (.pay n (frameCrc (txHeader s.params s.txType s.txSeq n) []))).emit
      { tx := txPreamble (txHeader s.params s.txType s.txSeq n) } := by
  simp [State.startFrame, hn]

theorem sendPayload_last (c : Halfword) (b : Byte) :
    s.sendPayload 1#8 c b = (s.setTxs .idle).emit { tx := [b] ++ checksumBytes (crcStep c b) } := rfl

theorem sendPayload_more (rem : Byte) (c : Halfword) (b : Byte) (hr : rem ≠ 1#8) :
    s.sendPayload rem c b = (s.setTxs (.pay (rem - 1#8) (crcStep c b))).emit { tx := [b] } := by
  simp [State.sendPayload, hr]

/-- One payload byte fewer to come. -/
theorem rem_sub_one (rem : Byte) (h : 1 ≤ rem.toNat) : (rem - 1#8).toNat = rem.toNat - 1 := by
  have := rem.isLt
  simp
  omega

theorem encodeFrame_length (p : Params) (t q : Byte) (pl : List Byte) :
    (encodeFrame p t q pl).length = 8 + pl.length := by
  simp [encodeFrame, txPreamble, Header.bytes, checksumBytes]
  omega

/-- A frame is marker, header, payload, checksum (R80). -/
theorem encodeFrame_eq (p : Params) (t q : Byte) (pl : List Byte) :
    encodeFrame p t q pl =
      [0xAA#8, 0x55#8] ++ (txHeader p t q (BitVec.ofNat 8 pl.length)).bytes ++ pl ++
        checksumBytes (frameCrc (txHeader p t q (BitVec.ofNat 8 pl.length)) pl) := rfl

end Sys2Proof.Machine
end

