-- ==== Sys2Proof/Tests/Slice0.lean ====
section
/-! SUPPORT. The model's own tests. Expected values are those of the spec: the worked examples in the rules and the
vectors of 95_test_vectors.md, named at each test. Then, for every statement with hypotheses, a state and operands that
meet them together. -/

namespace Sys2Proof.Tests

open Sys2Proof Sys2Proof.Machine

/-- The next state of an answer. -/
def next? : Answer → Option State
  | .next t => some t
  | .fault _ => none
  | .refused _ => none

/-- The next state after the host presents `w` at `s`. -/
def after? (w : Halfword) (s : State) : Option State := next? (step (s.present [.cmd w]))

/-! ### WellFormed -/

theorem test_wf_refuses_a_defined_opcode_as_reserved :
    (Instr.reserved 0x02#8 0x00#8).wf = false ∧ (Instr.reserved 0x30#8 0xFF#8).wf = false := by decide

/-- Both ends of each range of R93, and the nine opcodes between them. -/
theorem test_wf_reserved_ranges :
    ([0x03#8, 0x0F#8, 0x11#8, 0x1F#8, 0x24#8, 0x2F#8, 0x31#8, 0xFF#8].all reservedOpcode) = true ∧
    ([0x00#8, 0x01#8, 0x02#8, 0x10#8, 0x20#8, 0x21#8, 0x22#8, 0x23#8, 0x30#8].any reservedOpcode) = false := by decide

/-! ### Decoding, words written out bit by bit from R90 and R92 -/

theorem test_decode_nop : decodeWord 0b0000000000000000#16 = .nop 0x00#8 := by decide
theorem test_decode_nop_ignored_operand : decodeWord 0b0000000011111111#16 = .nop 0xFF#8 := by decide
theorem test_decode_crcInit : decodeWord 0b0000000100000000#16 = .crcInit 0x00#8 := by decide
theorem test_decode_crcByte : decodeWord 0b0000001000111111#16 = .crcByte 0x3F#8 := by decide
theorem test_decode_rxByte : decodeWord 0b0001000010101010#16 = .rxByte 0xAA#8 := by decide
theorem test_decode_txType : decodeWord 0b0010000000000001#16 = .txType 0x01#8 := by decide
theorem test_decode_txSeq : decodeWord 0b0010000100000111#16 = .txSeq 0x07#8 := by decide
theorem test_decode_txLen : decodeWord 0b0010001000000110#16 = .txLen 0x06#8 := by decide
theorem test_decode_txData : decodeWord 0b0010001111100000#16 = .txData 0xE0#8 := by decide
theorem test_decode_rd : decodeWord 0b0011000000000011#16 = .rd 0x03#8 := by decide
theorem test_decode_reserved : decodeWord 0b0100000000000000#16 = .reserved 0x40#8 0x00#8 := by decide

/-- V-CTL-11. -/
theorem test_decode_reserved_neighbours :
    ([0x0300#16, 0x1100#16, 0x2400#16, 0x3100#16, 0xFFFF#16].all fun w => match decodeWord w with
      | .reserved _ _ => true
      | _ => false) = true := by decide

theorem test_decode_table_word :
    decodeTableWord 16 0x22FF = some (.txLen 0xFF#8) ∧ decodeTableWord 8 0x7F = some (.nop 0x7F#8) ∧
    decodeTableWord 17 0x22FF = none ∧ decodeTableWord 16 0x10000 = none := by decide

theorem test_encode_examples :
    encode (.crcByte 0x3F#8) = 0x023F#16 ∧ encode (.rd 0x03#8) = 0x3003#16 ∧ encode (.txData 0xE0#8) = 0x23E0#16 ∧
    encode (.reserved 0x40#8 0x00#8) = 0x4000#16 := by decide

/-- R94's own examples of command lines. -/
theorem test_assemble_lines :
    assembleLine "RD CRC_ERR".toList = some [0x3003#16] ∧ assembleLine "TX.LEN 6 ; start".toList = some [0x2206#16] ∧
    assembleLine ".word 0x4000".toList = some [0x4000#16] ∧ assembleLine "  ; nothing".toList = some [] ∧
    assembleLine "TX.LEN 256".toList = none := by decide

/-- R95 and R137. -/
theorem test_pseudo_instructions :
    crcBlock [0x01#8] = [.crcInit 0x00#8, .crcByte 0x01#8] ∧ rxStream [0xAA#8] = [.rxByte 0xAA#8] ∧
    txFrame 0x02#8 0x01#8 [] = some [.txType 0x02#8, .txSeq 0x01#8, .txLen 0x00#8] ∧
    txFrame 0x02#8 0x01#8 (List.replicate 256 0x00#8) = none := by
  refine ⟨rfl, rfl, rfl, ?_⟩
  rw [txFrame, List.length_replicate]
  rfl

/-! ### One step of each operation -/

/-- R180 and V-CTL-9. -/
theorem test_nop : after? 0x00FF#16 State.reset = some State.reset := by decide

/-- R111's example. -/
theorem test_crcInit : (after? 0x0100#16 { State.reset with crc := 0x3F81#16 }).map (·.crc) = some 0xFFFF#16 := by decide

/-- R112's example. -/
theorem test_crcByte : (after? 0x0201#16 State.reset).map (·.crc) = some 0xF1D1#16 := by decide

/-- V-STEP-3, V-STEP-9, V-STEP-10: the bit order and the polynomial. -/
theorem test_crcStep_vectors :
    crcStep 0xFFFF#16 0x80#8 = 0x7078#16 ∧ crcStep 0x8000#16 0x00#8 = 0x9188#16 ∧
    crcStep 0x1234#16 0x56#8 = 0x3C40#16 := by decide

/-- By hand from R110: a zero byte leaves 0xF01F as it is (log 13). -/
theorem test_crcStep_fixed_value : crcStep 0xF01F#16 0x00#8 = 0xF01F#16 := by decide

/-- The header of the W1 frame. -/
def w1Header : Header := ⟨0x01#8, 0x01#8, 0x00#8, 0x06#8⟩

/-- The payload of the W1 frame. -/
def w1Payload : List Byte := [0xFF#8, 0x3F#8, 0x00#8, 0xE0#8, 0x02#8, 0x00#8]

set_option maxRecDepth 4000 in
/-- R150's example: the W1 frame comes out on its last byte. -/
theorem test_rxByte_emits_the_W1_frame :
    (after? 0x103F#16 { State.reset with rxs := .chk w1Header w1Payload (some 0x81#8) }).map (fun t => (t.out.frame, t.rxs))
      = some (some ⟨0x01#8, 0x01#8, 0x00#8, 0x06#8, w1Payload, 0x3F81#16⟩, .scan false) := by decide

/-- V-RX-19: a header error wraps HDR_ERR. -/
theorem test_rxByte_header_error_wraps :
    (after? 0x1000#16 { State.reset with rxs := .hdr [0x02#8, 0x00#8, 0x00#8], hdrErr := 0xFFFF#16 }).map
      (fun t => (t.hdrErr, t.rxs)) = some (0x0000#16, .scan false) := by decide

/-- R131's example. -/
theorem test_txType : (after? 0x2010#16 State.reset).map (·.readReg .txHdr) = some 0x0010#16 := by decide

/-- R132's example. -/
theorem test_txSeq : (after? 0x2107#16 State.reset).map (·.txSeq) = some 0x07#8 := by decide

set_option maxRecDepth 4000 in
/-- R133's example. -/
theorem test_txLen_empty_frame :
    (after? 0x2200#16 { State.reset with txType := 0x02#8 }).map (fun t => (t.out.tx, t.txs)) =
      some ([0xAA#8, 0x55#8, 0x01#8, 0x02#8, 0x00#8, 0x00#8, 0x14#8, 0x9C#8], .idle) := by decide

/-- V-TX-11: no check against MAX_PAYLOAD. -/
theorem test_txLen_over_the_maximum :
    (after? 0x2210#16 { State.resetFor { maxPayload := 0x04#8 } with txType := 0x01#8 }).map (fun t => (t.out.tx, t.txs.remaining)) =
      some ([0xAA#8, 0x55#8, 0x01#8, 0x01#8, 0x00#8, 0x10#8], 0x0010#16) := by decide

/-- R134's example. -/
theorem test_txData_last_byte :
    (after? 0x2300#16 { State.reset with txs := .pay 0x01#8 0xAB3B#16 }).map (fun t => (t.out.tx, t.txs)) =
      some ([0x00#8, 0x81#8, 0x3F#8], .idle) := by decide

/-- V-TX-8. -/
theorem test_txData_out_of_sequence :
    after? 0x2355#16 State.reset = some { State.reset with txErr := true } := by decide

/-- V-CTL-6. -/
theorem test_rd_config : (after? 0x3005#16 (State.resetFor { maxPayload := 0x04#8 })).map (·.out.rd) = some (some 0x0401#16) := by
  decide

/-- P4's second status read: RXST = 3 and ILLCMD. -/
theorem test_rd_status :
    (after? 0x3001#16 { State.reset with rxs := .chk w1Header w1Payload none, illCmd := true }).map (·.out.rd) =
      some (some 0x0013#16) := by decide

/-- V-CTL-10. -/
theorem test_reserved : after? 0x4000#16 State.reset = some { State.reset with illCmd := true } := by decide

/-- R210 from a state in the middle of both kinds of frame. -/
theorem test_reset_event :
    next? (step { State.reset with rxs := .hdr [0x01#8], txs := .pay 0x02#8 0x0000#16, crc := 0x0000#16, txErr := true,
                                   pending := [.reset] }) = some State.reset := by decide

theorem test_withFetchWord_runs_the_word :
    (next? (step (State.reset.withFetchWord 16 0x0201))).map (·.crc) = some 0xF1D1#16 := by decide

/-! ### States and operands that meet the statements' hypotheses -/

/-- ResetEventRestoresTheTable, StepRunsTheDecodedCommand, IdleStepKeepsTheState. -/
theorem test_witness_steps :
    ({ State.reset with pending := [.reset] } : State).pending = .reset :: [] ∧
    (State.reset.present [.cmd 0x0201#16, .reset]).pending = .cmd 0x0201#16 :: [.reset] ∧
    decodeWord 0x0201#16 = .crcByte 0x01#8 ∧ (Instr.crcByte 0x01#8).wf = true ∧ State.reset.pending = [] := by decide

/-- RxByteFollowsTheTransitionTable, row by row at the boundaries: lengths 2 and 3 of a header, the maximum and one
above it, length 0 and 1, the last payload byte and the one before, both checksum outcomes. -/
theorem test_witness_rx_rows :
    ([] : List Byte).length < 3 ∧ [0x01#8, 0x02#8].length < 3 ∧
    (0x02#8 : Byte) ≠ Params.default.protoVersion ∧ ({ maxPayload := 0x04#8 } : Params).maxPayload < (0x05#8 : Byte) ∧
    (0x01#8 : Byte) = Params.default.protoVersion ∧ (0#8 : Byte) < 0x01#8 ∧
    (0x04#8 : Byte) ≤ ({ maxPayload := 0x04#8 } : Params).maxPayload ∧ (0xFF#8 : Byte) ≤ Params.default.maxPayload ∧
    (w1Payload.take 4).length + 1 ≠ w1Header.length.toNat ∧ (w1Payload.take 5).length + 1 = w1Header.length.toNat := by
  decide

set_option maxRecDepth 4000 in
theorem test_witness_rx_checksum_rows :
    (0x3F#8 ++ 0x81#8 : Halfword) = crc16 ([w1Header.version, w1Header.msgType, w1Header.seq, w1Header.length] ++ w1Payload) ∧
    (0x81#8 ++ 0x3F#8 : Halfword) ≠ crc16 ([w1Header.version, w1Header.msgType, w1Header.seq, w1Header.length] ++ w1Payload) := by
  decide

/-- TxLenStartsAFrame, TxDataSendsOnePayloadByte, RdReturnsTheRegister, ReservedWordOnlySetsIllcmd at their boundaries. -/
theorem test_witness_operands :
    State.reset.txs = .idle ∧ (1#8 : Byte) ≠ 0#8 ∧ (0xFF#8 : Byte) ≠ 0#8 ∧ (2#8 : Byte) ≠ 1#8 ∧
    (State.reset.setTxs (.pay 0x01#8 0x0000#16)).txs = .pay 0x01#8 0x0000#16 ∧
    (0x06#8 : Byte) < 0x07#8 ∧ (0x06#8 : Byte) < 0xFF#8 ∧
    (0x03#8 ≤ (0x0F#8 : Byte) ∧ (0x0F#8 : Byte) ≤ 0x0F#8) ∧ (0x11#8 ≤ (0x11#8 : Byte) ∧ (0x11#8 : Byte) ≤ 0x1F#8) ∧
    (0x24#8 ≤ (0x2F#8 : Byte) ∧ (0x2F#8 : Byte) ≤ 0x2F#8) ∧ (0x31#8 : Byte) ≤ 0x31#8 := by decide

/-- DecodeInvertsEncode, AssemblerReadsWhatItWrites. -/
theorem test_witness_well_formed : (Instr.reserved 0x03#8 0xFF#8).wf = true ∧ (Instr.nop 0x00#8).wf = true := by decide

/-- CrcRegisterHoldsTheRangeChecksum: started by CRC.INIT and by reset, with other operations between. -/
theorem test_witness_crc_range :
    restartsCrc (host (.crcInit 0xAB#8)) = true ∧ restartsCrc .reset = true ∧
    ∀ e ∈ [host (.crcByte 0x31#8), .rx 0xAA#8, host (.txLen 0x01#8), host (.crcByte 0x32#8)], restartsCrc e = false := by
  decide

/-- CrcFunctionLaws (its premised laws) and ChecksumIsLittleEndian. -/
theorem test_witness_crc_laws :
    crcStep 0#16 0#8 = 0#16 ∧ crcStep 0x1234#16 0x56#8 = crcStep 0x1234#16 0x56#8 ∧ (0xFF#8 : Byte) ≠ 0xFE#8 ∧
    checksumBytes 0x3F81#16 = [0x81#8, 0x3F#8] := by decide

/-- A reserved operation. -/
def isReserved? : Option Instr → Bool
  | some (.reserved _ _) => true
  | _ => false

/-- TransmitSequenceEmitsEncode, with an interleaved reception, read and latch; EncodedFrameHasTheWireLayout. -/
theorem test_witness_transmit_sequence :
    State.reset.txs = .idle ∧ [0x88#8, 0x13#8].length ≤ 255 ∧
    (∀ e ∈ [host (.txData 0x88#8), .rx 0x55#8, host (.rd 0x01#8), host (.txType 0x09#8), host (.txData 0x13#8)],
      opensOrResets e = false ∧ ∀ o b, e.instr ≠ some (.reserved o b)) ∧
    [host (.txData 0x88#8), .rx 0x55#8, host (.rd 0x01#8), host (.txType 0x09#8), host (.txData 0x13#8)].filterMap dataOperand
      = [0x88#8, 0x13#8] := by
  refine ⟨rfl, by decide, ?_, by decide⟩
  intro e he
  simp only [List.mem_cons, List.not_mem_nil, or_false] at he
  rcases he with rfl | rfl | rfl | rfl | rfl <;>
    exact ⟨by decide, fun o b h => nomatch (show false = true from congrArg isReserved? h)⟩

/-- TransmitIgnoresTheMaximum, ReceiverRecoversTheEncodedFrame, ResyncAfterAFlippedPayloadByte (W2). -/
theorem test_witness_reception :
    State.reset.rxs = .scan false ∧ ({ maxPayload := 0x04#8 } : Params).maxPayload.toNat < w1Payload.length ∧
    w1Payload.length ≤ 255 ∧ w1Payload.length ≤ State.reset.params.maxPayload.toNat ∧ 0 < w1Payload.length ∧
    w1Payload[0]? ≠ some 0xFE#8 ∧ w1Payload[5]? ≠ some 0x01#8 := by decide

/-- StepKeepsTheFramersWellFormed, EmittedFramesAreValid, ErrorCountersCountDiscards: a well-formed state, about to take
the last byte of the W1 frame, that steps. -/
def w1Last : State := { State.reset with rxs := .chk w1Header w1Payload (some 0x81#8), pending := [.rx 0x3F#8] }

set_option maxRecDepth 4000 in
theorem test_witness_well_formed_step :
    FramersWf w1Last ∧ w1Last.pending = .rx 0x3F#8 :: [] ∧
    ((next? (step w1Last)).map fun t => t.out.frame.isSome) = some true := by decide

/-- ErrorCountersCountDiscards: a state about to discard a header, one about to discard a frame. -/
theorem test_witness_discards :
    FramersWf { State.reset with rxs := .hdr [0x02#8, 0x00#8, 0x00#8] } ∧
    FramersWf { State.reset with rxs := .chk w1Header w1Payload (some 0x3F#8) } ∧
    (Event.rx 0x00#8).instr = some (.rxByte 0x00#8) := by decide

/-- A frame of two payload bytes with one of them sent, and the event that sends the other. -/
def openFrame : State :=
  { State.reset with
    txs := .pay 0x01#8 (crc16 [0x01#8, 0x02#8, 0x03#8, 0x02#8, 0x77#8])
    run := { tx := [0xAA#8, 0x55#8, 0x01#8, 0x02#8, 0x03#8, 0x02#8, 0x77#8] }
    pending := [.cmd 0x2388#16] }

/-- OpenFrameTracksTheTransmittedBytes: both hypotheses at `openFrame`. -/
theorem test_witness_open_frame :
    OpenFrameMatches openFrame.params openFrame.run.tx openFrame.txs ∧ ∃ t, step openFrame = .next t :=
  ⟨⟨[], ⟨0x01#8, 0x02#8, 0x03#8, 0x02#8⟩, [0x77#8], rfl, rfl, rfl, by decide, rfl⟩, _, step_of_pending openFrame _ _ rfl⟩

/-- The three DependsOnly statements: two runs with the same view and different other operations. -/
theorem test_witness_views :
    [Event.rx 0xAA#8, host (.crcByte 0x01#8), .reset, host (.txLen 0x02#8)].filterMap (partView isRxOp) =
      [host (.rxByte 0xAA#8), .cmd 0x4000#16, .reset].filterMap (partView isRxOp) ∧
    [Event.rx 0xAA#8, host (.crcByte 0x01#8), .reset].filterMap (partView isCrcOp) =
      [host (.crcByte 0x01#8), .reset, host (.txLen 0x02#8)].filterMap (partView isCrcOp) ∧
    [host (.txSeq 0x05#8), Event.rx 0xAA#8, .reset].filterMap (partView isTxOp) =
      [host (.txSeq 0x05#8), .reset, host (.crcInit 0x00#8)].filterMap (partView isTxOp) := by decide

/-- ReceptionCommutesWithHostOperations. -/
theorem test_witness_commuting_word : isRxOp (decodeWord 0x2201#16) = false ∧ ∀ i, decodeWord 0x2201#16 ≠ .rd i := by
  refine ⟨by decide, fun i h => ?_⟩
  rw [show decodeWord 0x2201#16 = .txLen 0x01#8 by decide] at h
  cases h

/-- CrcRegisterIsIndependent, LatchesAreReadOnlyByTxLen, OneOutcomePerOperation, DiscardsOnlyCountAndRescan: operations
of each kind that answer a next state. -/
theorem test_witness_operations_answer :
    (next? (exec (.rxByte 0x00#8) State.reset)).isSome = true ∧ (next? (exec (.txLen 0x01#8) State.reset)).isSome = true ∧
    (next? (exec (.txData 0x01#8) State.reset)).isSome = true ∧ isCrcOp (.crcByte 0x00#8) = true ∧
    (next? (exec (.crcByte 0x00#8) State.reset)).isSome = true ∧ Instr.rd 0x05#8 ≠ .rd 0x06#8 := by decide

/-- StickyBitsAreSetAndHeld, StateHasOnlyItsWriters: pending events of each kind. -/
theorem test_witness_pending_events :
    (State.reset.present [.cmd 0x4000#16]).pending = .cmd 0x4000#16 :: [] ∧ Event.cmd 0x4000#16 ≠ .reset ∧
    (next? (step (State.reset.present [.cmd 0x4000#16]))).isSome = true ∧
    (State.reset.present [.reset]).pending = .reset :: [] := by decide

/-- OpenFrameEndsOnlyByItsData: an open frame of two bytes, one byte sent and both sent, no reset. -/
theorem test_witness_open_frame_data :
    (∀ e ∈ [host (.txData 0x01#8), host (.txLen 0x09#8), host (.txData 0x02#8)], e ≠ .reset) ∧
    ([host (.txData 0x01#8), host (.txLen 0x09#8)].filterMap dataOperand).length < (0x02#8 : Byte).toNat ∧
    ([host (.txData 0x01#8), host (.txLen 0x09#8), host (.txData 0x02#8)].filterMap dataOperand).length = (0x02#8 : Byte).toNat ∧
    dataOperand (host (.txData 0x02#8)) ≠ none := by decide

/-- FramesTakeTheirByteCount: a bad header by version and by length, a good one with no payload and with one byte. -/
theorem test_witness_byte_counts :
    (0x02#8 : Byte) ≠ Params.default.protoVersion ∧ ({ maxPayload := 0x04#8 } : Params).maxPayload < (0x05#8 : Byte) ∧
    ¬((0x01#8 : Byte) ≠ Params.default.protoVersion ∨ Params.default.maxPayload < (0x00#8 : Byte)) ∧
    ([] : List Byte).length = (0x00#8 : Byte).toNat ∧ [0x77#8].length = (0x01#8 : Byte).toNat := by decide

/-- ReceiverScansAgainWithinTheBound, IncrementalChecksumGivesTheSameResults: well-formed states in the middle of a
frame, and streams as long as the bound for MAX_PAYLOAD = 1. -/
theorem test_witness_bound :
    FramersWf { State.resetFor { maxPayload := 0x01#8 } with rxs := .pay ⟨0x01#8, 0x00#8, 0x00#8, 0x01#8⟩ [] } ∧
    FramersWf { State.resetFor { maxPayload := 0x01#8 } with rxs := .hdr [] } ∧
    (0x01#8 : Byte).toNat + 2 ≤ [0x00#8, 0x00#8, 0x00#8].length ∧
    (0x01#8 : Byte).toNat + 2 + 4 ≤ [0x00#8, 0x00#8, 0x00#8, 0x00#8, 0x00#8, 0x00#8, 0x00#8].length ∧
    rxWf Params.default (.chk w1Header w1Payload none) = true := by decide

end Sys2Proof.Tests
end

section
/-! SUPPORT. The output record of each operation (R12): one lemma per operation that can put something out, then the
obligation assembled from them. -/

namespace Sys2Proof.Machine

section OutputRecords

variable (s : State)

/-! ### The bytes of the pieces of a frame -/

@[simp] theorem Header.bytes_length (h : Header) : h.bytes.length = 4 := rfl
@[simp] theorem txPreamble_length (h : Header) : (txPreamble h).length = 6 := rfl
@[simp] theorem checksumBytes_length (c : Halfword) : (checksumBytes c).length = 2 := rfl

/-! ### The output records of the shared operations -/

@[simp] theorem State.txOutOfSequence_out : s.txOutOfSequence.out = Output.none := rfl
@[simp] theorem State.acceptRx_out (r : RxResult) : (s.acceptRx r).out = { frame := r.frame } := rfl

/-- TX.LEN from TxIdle puts out marker and header, and the checksum with them when there is no payload (R133). -/
theorem startFrame_out (n : Byte) :
    ∃ bs, (s.startFrame n).out = { tx := bs } ∧ bs.length ≤ 8 := by
  by_cases hn : n = 0#8
  · subst hn; exact ⟨_, congrArg State.out (startFrame_empty s), by simp⟩
  · exact ⟨_, congrArg State.out (startFrame_open s n hn), by simp⟩

/-- TX.DATA from TxPay puts out its byte, and the checksum with it when it is the last one (R134). -/
theorem sendPayload_out (rem : Byte) (c : Halfword) (b : Byte) :
    ∃ bs, (s.sendPayload rem c b).out = { tx := bs } ∧ bs.length ≤ 3 := by
  by_cases hr : rem = 1#8
  · subst hr; exact ⟨_, congrArg State.out (sendPayload_last s c b), by simp⟩
  · exact ⟨_, congrArg State.out (sendPayload_more s rem c b hr), by simp⟩

/-! ### The output records of the operations -/

theorem effect_rxByte_out (b : Byte) :
    (effect (.rxByte b) s).out = { frame := (rxStep s.params s.rxs b).frame } := State.acceptRx_out s _

theorem effect_rd_out (k : Byte) :
    (effect (.rd k) s).out = { rd := some (s.readReg (Reg.ofIndex k)) } := rfl

/-- TX.LEN puts out bytes only, at most 8, in either state of the transmit framer (R67, R221). -/
theorem effect_txLen_out (n : Byte) :
    ∃ bs, (effect (.txLen n) s).out = { tx := bs } ∧ bs.length ≤ 8 := by
  cases h : s.txs with
  | idle => simpa only [effect, h] using startFrame_out s n
  | pay rem c => exact ⟨[], by simp only [effect, h]; rfl, by simp⟩

/-- TX.DATA puts out bytes only, at most 3, in either state of the transmit framer (R67, R221). -/
theorem effect_txData_out (b : Byte) :
    ∃ bs, (effect (.txData b) s).out = { tx := bs } ∧ bs.length ≤ 3 := by
  cases h : s.txs with
  | idle => exact ⟨[], by simp only [effect, h]; rfl, by simp⟩
  | pay rem c => simpa only [effect, h] using sendPayload_out s rem c b

/-- The operations whose output record is always empty: all but RX.BYTE, TX.LEN, TX.DATA and RD. -/
theorem effect_out_none (i : Instr) (hrx : ∀ b, i ≠ .rxByte b) (hlen : ∀ n, i ≠ .txLen n)
    (hdata : ∀ b, i ≠ .txData b) (hrd : ∀ k, i ≠ .rd k) : (effect i s).out = Output.none := by
  cases i with
  | rxByte b => exact absurd rfl (hrx b)
  | txLen n => exact absurd rfl (hlen n)
  | txData b => exact absurd rfl (hdata b)
  | rd k => exact absurd rfl (hrd k)
  | _ => rfl

end OutputRecords

/-- Settles O49: every operation leads to `effect`, whose output record the lemmas above give operation by operation. -/
theorem outputsComeOnlyFromTheirOperations : Obligations.OutputsComeOnlyFromTheirOperations := by
  intro s i
  refine ⟨effect i s, exec_eq_effect i s, ?_⟩
  cases i with
  | rxByte b => simp [effect_rxByte_out]
  | rd k => simp [effect_rd_out]
  | txLen n =>
    obtain ⟨bs, hout, hlen⟩ := effect_txLen_out s n
    simp [hout, hlen]
  | txData b =>
    obtain ⟨bs, hout, hlen⟩ := effect_txData_out s b
    simp [hout, hlen]
  | _ => simp [effect_out_none]

end Sys2Proof.Machine
end

section
/-! SUPPORT. What an event does, by its operation, and what each operation leaves unchanged: the "written by" column of
R32, one lemma per state component. -/

namespace Sys2Proof.Machine

section EventRules

variable {s t : State} {e : Event} {es : List Event} {i : Instr}

/-! ### The operation of an event -/

@[simp] theorem Event.instr_rx (b : Byte) : (Event.rx b).instr = some (.rxByte b) := rfl
@[simp] theorem Event.instr_cmd (w : Halfword) : (Event.cmd w).instr = some (decodeWord w) := rfl
@[simp] theorem Event.instr_reset : Event.reset.instr = none := rfl

/-- Every event but reset performs one operation (R222). -/
theorem Event.exists_instr (h : e ≠ .reset) : ∃ i, e.instr = some i := by
  cases e with
  | cmd w => exact ⟨_, Event.instr_cmd w⟩
  | rx b => exact ⟨_, Event.instr_rx b⟩
  | reset => exact absurd rfl h

theorem after_of_instr (h : e.instr = some i) (s : State) : after e s = (effect i s).recordOut := by
  cases e with
  | reset => cases h
  | _ => cases h; rfl

@[simp] theorem after_reset (s : State) : after .reset s = s.applyReset := rfl

theorem step_of_instr (hp : s.pending = e :: es) (hi : e.instr = some i) :
    step s = .next { (effect i s).recordOut with pending := es } := by
  rw [step_of_pending s e es hp, after_with_pending, after_of_instr hi]

theorem step_of_reset (hp : s.pending = .reset :: es) : step s = .next { s.applyReset with pending := es } := by
  rw [step_of_pending s .reset es hp, after_with_pending, after_reset]

/-- What a step led to: the idle state, an operation's effect with its output recorded, or the reset state. -/
theorem step_next_cases (h : step s = .next t) :
    t = s.emit Output.none ∨
    (∃ e es i, s.pending = e :: es ∧ e.instr = some i ∧ t = { (effect i s).recordOut with pending := es }) ∨
    (∃ es, t = { s.applyReset with pending := es }) := by
  obtain ⟨_, hs⟩ | ⟨e, es, hp, _⟩ := step_cases s
  · rw [hs] at h
    cases h
    exact .inl rfl
  · by_cases he : e = .reset
    · rw [step_of_reset (he ▸ hp)] at h
      cases h
      exact .inr (.inr ⟨es, rfl⟩)
    · obtain ⟨i, hi⟩ := Event.exists_instr he
      rw [step_of_instr hp hi] at h
      cases h
      exact .inr (.inl ⟨e, es, i, hp, hi, rfl⟩)

/-- A predicate that does not look at the events to come is kept by every step when the idle step, every operation with
its output recorded, and reset keep it. -/
theorem step_keeps {I : State → Prop} (hpending : ∀ s es, I s → I { s with pending := es })
    (hidle : ∀ s, I s → I (s.emit Output.none)) (hop : ∀ i s, I s → I (effect i s).recordOut)
    (hreset : ∀ s, I s → I s.applyReset) (hs : I s) (h : step s = .next t) : I t := by
  obtain rfl | ⟨_, es, i, _, _, rfl⟩ | ⟨es, rfl⟩ := step_next_cases h
  · exact hidle s hs
  · exact hpending _ es (hop i s hs)
  · exact hpending _ es (hreset s hs)

end EventRules

section Frames

variable (s : State)

/-! ### What RX.BYTE, RD and a transmit command out of sequence write -/

theorem effect_rxByte_rxs (b : Byte) : (effect (.rxByte b) s).rxs = (rxStep s.params s.rxs b).rxs := rfl
theorem effect_rxByte_hdrErr (b : Byte) : (effect (.rxByte b) s).hdrErr =
    if (rxStep s.params s.rxs b).hdrErr then s.hdrErr + 1#16 else s.hdrErr := rfl
theorem effect_rxByte_crcErr (b : Byte) : (effect (.rxByte b) s).crcErr =
    if (rxStep s.params s.rxs b).crcErr then s.crcErr + 1#16 else s.crcErr := rfl

theorem exec_rd_of_readReg {s : State} {k : Byte} {v : Halfword} (h : s.readReg (Reg.ofIndex k) = v) :
    exec (.rd k) s = .next { s with out := { rd := some v } } := by
  rw [← h]; rfl

@[simp] theorem State.txOutOfSequence_txErr : s.txOutOfSequence.txErr = true := rfl

/-! ### TX.LEN and TX.DATA in either state of the transmit framer (R133, R134) -/

variable {s}

theorem effect_txLen_idle (n : Byte) (h : s.txs = .idle) : effect (.txLen n) s = s.startFrame n := by
  simp only [effect, h]

theorem effect_txLen_open (n : Byte) (h : s.txs ≠ .idle) : effect (.txLen n) s = s.txOutOfSequence := by
  cases hx : s.txs with
  | idle => exact absurd hx h
  | pay rem c => simp only [effect, hx]

theorem effect_txData_idle (b : Byte) (h : s.txs = .idle) : effect (.txData b) s = s.txOutOfSequence := by
  simp only [effect, h]

theorem effect_txData_open (b : Byte) {rem : Byte} {c : Halfword} (h : s.txs = .pay rem c) :
    effect (.txData b) s = s.sendPayload rem c b := by
  simp only [effect, h]

variable (s)

/-- Starting a frame writes TXS and the output record only. -/
theorem startFrame_frame (n : Byte) :
    s.startFrame n = { s with txs := (s.startFrame n).txs, out := (s.startFrame n).out } := by
  simp only [State.startFrame]; split <;> rfl

/-- Sending a payload byte writes TXS and the output record only. -/
theorem sendPayload_frame (rem : Byte) (c : Halfword) (b : Byte) :
    s.sendPayload rem c b = { s with txs := (s.sendPayload rem c b).txs, out := (s.sendPayload rem c b).out } := by
  simp only [State.sendPayload]; split <;> rfl

/-- TX.LEN writes TXS, TXERR and the output record only (R133). -/
theorem effect_txLen_frame (n : Byte) :
    ∃ x e o, effect (.txLen n) s = { s with txs := x, txErr := e, out := o } := by
  by_cases h : s.txs = .idle
  · rw [effect_txLen_idle n h]; exact ⟨_, _, _, startFrame_frame s n⟩
  · rw [effect_txLen_open n h]; exact ⟨_, _, _, rfl⟩

/-- TX.DATA writes TXS, TXERR and the output record only (R134). -/
theorem effect_txData_frame (b : Byte) :
    ∃ x e o, effect (.txData b) s = { s with txs := x, txErr := e, out := o } := by
  cases h : s.txs with
  | idle => rw [effect_txData_idle b h]; exact ⟨_, _, _, rfl⟩
  | pay rem c => rw [effect_txData_open b h]; exact ⟨_, _, _, sendPayload_frame s rem c b⟩

/-! ### The operations that leave a component as it is (R32) -/

theorem effect_crc_of_not_crcOp (i : Instr) (hi : isCrcOp i = false) : (effect i s).crc = s.crc := by
  cases i with
  | crcInit _ => cases hi
  | crcByte _ => cases hi
  | txLen n => obtain ⟨x, e, o, h⟩ := effect_txLen_frame s n; rw [h]
  | txData b => obtain ⟨x, e, o, h⟩ := effect_txData_frame s b; rw [h]
  | _ => rfl

/-- Only RX.BYTE writes RXS and the two counters, and only it puts out a frame. -/
theorem effect_of_not_rxByte (i : Instr) (hi : ∀ b, i ≠ .rxByte b) :
    (effect i s).rxs = s.rxs ∧ (effect i s).hdrErr = s.hdrErr ∧ (effect i s).crcErr = s.crcErr ∧
    (effect i s).out.frame = none := by
  cases i with
  | rxByte b => exact absurd rfl (hi b)
  | txLen n =>
    obtain ⟨x, e, o, h⟩ := effect_txLen_frame s n
    obtain ⟨bs, ho, -⟩ := effect_txLen_out s n
    rw [ho, h]; exact ⟨rfl, rfl, rfl, rfl⟩
  | txData b =>
    obtain ⟨x, e, o, h⟩ := effect_txData_frame s b
    obtain ⟨bs, ho, -⟩ := effect_txData_out s b
    rw [ho, h]; exact ⟨rfl, rfl, rfl, rfl⟩
  | _ => exact ⟨rfl, rfl, rfl, rfl⟩

/-- Only TX.LEN and TX.DATA write TXS and TXERR, and only they put out bytes. -/
theorem effect_of_not_txLen_txData (i : Instr) (hlen : ∀ n, i ≠ .txLen n) (hdata : ∀ b, i ≠ .txData b) :
    (effect i s).txs = s.txs ∧ (effect i s).txErr = s.txErr ∧ (effect i s).out.tx = [] := by
  cases i with
  | txLen n => exact absurd rfl (hlen n)
  | txData b => exact absurd rfl (hdata b)
  | _ => exact ⟨rfl, rfl, rfl⟩

theorem effect_txType (i : Instr) (hi : (effect i s).txType ≠ s.txType) : i = .txType (effect i s).txType := by
  cases i with
  | txType t => rfl
  | txLen n => obtain ⟨x, e, o, h⟩ := effect_txLen_frame s n; rw [h] at hi; exact absurd rfl hi
  | txData b => obtain ⟨x, e, o, h⟩ := effect_txData_frame s b; rw [h] at hi; exact absurd rfl hi
  | _ => exact absurd rfl hi

theorem effect_txSeq (i : Instr) (hi : (effect i s).txSeq ≠ s.txSeq) : i = .txSeq (effect i s).txSeq := by
  cases i with
  | txSeq q => rfl
  | txLen n => obtain ⟨x, e, o, h⟩ := effect_txLen_frame s n; rw [h] at hi; exact absurd rfl hi
  | txData b => obtain ⟨x, e, o, h⟩ := effect_txData_frame s b; rw [h] at hi; exact absurd rfl hi
  | _ => exact absurd rfl hi

/-! ### The sticky bits (R30) -/

/-- ILLCMD is set by a reserved operation and by nothing else. -/
theorem effect_illCmd (i : Instr) :
    (effect i s).illCmd = true ↔ s.illCmd = true ∨ ∃ opc imm, i = .reserved opc imm := by
  cases i with
  | reserved opc imm => exact ⟨fun _ => .inr ⟨opc, imm, rfl⟩, fun _ => rfl⟩
  | txLen n => obtain ⟨x, e, o, h⟩ := effect_txLen_frame s n; simp [h]
  | txData b => obtain ⟨x, e, o, h⟩ := effect_txData_frame s b; simp [h]
  | _ => exact ⟨.inl, fun h => h.resolve_right (by simp)⟩

/-- TXERR is set by TX.LEN with a frame open and by TX.DATA with none. -/
theorem effect_txErr (i : Instr) :
    (effect i s).txErr = true ↔ s.txErr = true ∨ (∃ n, i = .txLen n ∧ s.txs ≠ .idle) ∨
      (∃ b, i = .txData b ∧ s.txs = .idle) := by
  cases i with
  | txLen n =>
    by_cases h : s.txs = .idle
    · rw [effect_txLen_idle n h, startFrame_frame]; simp [h]
    · rw [effect_txLen_open n h]; simp [h]
  | txData b =>
    cases h : s.txs with
    | idle => rw [effect_txData_idle b h]; simp
    | pay rem c => rw [effect_txData_open b h, sendPayload_frame]; simp
  | _ => exact ⟨.inl, fun h => h.resolve_right (by simp)⟩

end Frames

/-- Settles O48, by the component's lemma above for the event's operation. -/
theorem stateHasOnlyItsWriters : Obligations.StateHasOnlyItsWriters := by
  intro s t e es hp hs he
  obtain ⟨i, hi⟩ := Event.exists_instr he
  rw [step_of_instr hp hi] at hs
  cases hs
  simp only [hi, State.recordOut_crc, State.recordOut_rxs, State.recordOut_hdrErr, State.recordOut_crcErr,
    State.recordOut_txs, State.recordOut_txType, State.recordOut_txSeq, State.recordOut_params, effect_params,
    Option.some.injEq]
  refine ⟨fun hc => ⟨i, rfl, ?_⟩, fun hr => ?_, fun hx => ?_, effect_txType s i, effect_txSeq s i, trivial⟩
  · by_contra hn
    exact hc (effect_crc_of_not_crcOp s i (Bool.not_eq_true _ ▸ hn))
  · by_contra hn
    obtain ⟨hrxs, hhdr, hcrc, -⟩ := effect_of_not_rxByte s i (not_exists.mp hn)
    simp [hrxs, hhdr, hcrc] at hr
  · by_contra hn
    simp only [not_exists, not_or] at hn
    exact hx (effect_of_not_txLen_txData s i (fun n => (hn n).1) (fun b => (hn b).2)).1

end Sys2Proof.Machine
end

section
/-! SUPPORT. The receive framer's invariant (R25), its two counters (R26, R27) and the frames it emits (R31, R160). -/

namespace Sys2Proof.Machine

section Receive

variable (p : Params) (b : Byte)

/-! ### Which bytes count an error or emit a frame -/

/-- A header of at most three bytes is short, or it is the first three bytes of a complete one. -/
theorem hdr_short_or_three {h : List Byte} (hl : h.length ≤ 3) : h.length < 3 ∨ ∃ v t q, h = [v, t, q] :=
  hl.lt_or_eq.imp_right List.length_eq_three.mp

/-- The fourth header byte discards exactly a bad header (R153, R154). -/
theorem rxHeaderDone_hdrErr (h : Header) : (rxHeaderDone p h).hdrErr = headerBad p h := by
  cases hb : headerBad p h with
  | true => rw [rxHeaderDone_bad p h hb]
  | false =>
    by_cases hn : h.length = 0#8
    · rw [rxHeaderDone_empty p h hb hn]
    · rw [rxHeaderDone_payload p h hb hn]

/-- A well-formed RXS discards a header exactly on its bad fourth byte. -/
theorem rxStep_hdrErr_iff (r : RxState) (hr : rxWf p r = true) :
    (rxStep p r b).hdrErr = true ↔
      ∃ v t q, r = .hdr [v, t, q] ∧ (v ≠ p.protoVersion ∨ p.maxPayload < b) := by
  constructor
  · intro hd
    obtain ⟨r', h⟩ | ⟨-, -, -, h, rfl, -⟩ | ⟨_, _, _, -, -, h⟩ | ⟨_, _, _, -, -, h⟩ := rxStep_cases p b r
    · simp [h] at hd
    · obtain hs | ⟨v, t, q, rfl⟩ := hdr_short_or_three (of_decide_eq_true hr)
      · simp [rxStep_hdr_short p b h hs] at hd
      · rw [rxStep_hdr_done, rxHeaderDone_hdrErr] at hd
        exact ⟨v, t, q, rfl, (headerBad_iff p _).mp hd⟩
    · simp [h] at hd
    · simp [h] at hd
  · rintro ⟨v, t, q, rfl, hb⟩
    rw [rxStep_hdr_done, rxHeaderDone_hdrErr]
    exact (headerBad_iff p _).mpr hb

/-- A frame is discarded for its checksum exactly on a second checksum byte that does not match (R158, R159). -/
theorem rxStep_crcErr_iff (r : RxState) :
    (rxStep p r b).crcErr = true ↔
      ∃ h d lo, r = .chk h d (some lo) ∧ b ++ lo ≠ crc16 (h.bytes ++ d) := by
  constructor
  · intro hc
    obtain ⟨r', h⟩ | ⟨_, _, _, _, -, -, h⟩ | ⟨h, d, lo, rfl, hne, -⟩ | ⟨_, _, _, -, -, h⟩ := rxStep_cases p b r
    · simp [h] at hc
    · simp [h] at hc
    · exact ⟨h, d, lo, rfl, pairLE_eq_append lo b ▸ hne⟩
    · simp [h] at hc
  · rintro ⟨h, d, lo, rfl, hne⟩
    rw [rxStep_chk_differ p b h d lo (pairLE_eq_append lo b ▸ hne)]

/-- A frame that comes out is the one whose second checksum byte matches (R160). -/
theorem rxStep_frame (r : RxState) (f : Frame) (hf : (rxStep p r b).frame = some f) :
    ∃ h d lo, r = .chk h d (some lo) ∧ pairLE lo b = frameCrc h d ∧ f = h.frame d (pairLE lo b) := by
  obtain ⟨r', h⟩ | ⟨_, _, _, _, -, -, h⟩ | ⟨_, _, _, -, -, h⟩ | ⟨h, d, lo, rfl, heq, hs⟩ := rxStep_cases p b r
  · simp [h] at hf
  · simp [h] at hf
  · simp [h] at hf
  · rw [hs] at hf
    exact ⟨h, d, lo, rfl, heq, (Option.some.inj hf).symm⟩

/-! ### The invariant of R25 -/

theorem rxWf_pay (h : Header) (d : List Byte) :
    rxWf p (.pay h d) = true ↔ h.version = p.protoVersion ∧ 1 ≤ h.length.toNat ∧
      h.length.toNat ≤ p.maxPayload.toNat ∧ d.length < h.length.toNat := by
  simp only [rxWf, Bool.and_eq_true, beq_iff_eq, decide_eq_true_eq, and_assoc]

theorem rxWf_chk (h : Header) (d : List Byte) (lo : Option Byte) :
    rxWf p (.chk h d lo) = true ↔ h.version = p.protoVersion ∧ h.length.toNat ≤ p.maxPayload.toNat ∧
      d.length = h.length.toNat := by
  simp only [rxWf, Bool.and_eq_true, beq_iff_eq, decide_eq_true_eq, and_assoc]

/-- A complete header leads to a well-formed RXS: a good one has the version and a length within the maximum. -/
theorem rxHeaderDone_wf (h : Header) : rxWf p (rxHeaderDone p h).rxs = true := by
  cases hb : headerBad p h with
  | true => rw [rxHeaderDone_bad p h hb]; rfl
  | false =>
    obtain ⟨hv, hmax⟩ : h.version = p.protoVersion ∧ h.length.toNat ≤ p.maxPayload.toNat := by
      simpa [headerBad] using hb
    by_cases hn : h.length = 0#8
    · rw [rxHeaderDone_empty p h hb hn, rxWf_chk]
      exact ⟨hv, hmax, hn ▸ rfl⟩
    · rw [rxHeaderDone_payload p h hb hn, rxWf_pay]
      have hpos : h.length.toNat ≠ 0 := toNat_ne_of_ne hn
      exact ⟨hv, Nat.pos_of_ne_zero hpos, hmax, Nat.pos_of_ne_zero hpos⟩

/-- Every received byte keeps R25. -/
theorem rxStep_wf (r : RxState) (hr : rxWf p r = true) : rxWf p (rxStep p r b).rxs = true := by
  match r with
  | .scan a =>
    by_cases h : a = true ∧ b = 0x55#8
    · obtain ⟨rfl, rfl⟩ := h; rfl
    · rw [rxStep_scan p b a h]; rfl
  | .hdr h =>
    obtain hs | ⟨v, t, q, rfl⟩ := hdr_short_or_three (of_decide_eq_true hr)
    · rw [rxStep_hdr_short p b h hs]
      exact decide_eq_true (by rw [List.length_append]; exact hs)
    · exact rxHeaderDone_wf p _
  | .pay h d =>
    obtain ⟨hv, hpos, hmax, hlen⟩ := (rxWf_pay p h d).mp hr
    have happ : (d ++ [b]).length = d.length + 1 := List.length_append
    by_cases hl : d.length + 1 = h.length.toNat
    · rw [rxStep_pay_last p b h d hl, rxWf_chk]
      exact ⟨hv, hmax, happ.trans hl⟩
    · rw [rxStep_pay_more p b h d hl, rxWf_pay]
      exact ⟨hv, hpos, hmax, by omega⟩
  | .chk h d none => exact hr
  | .chk h d (some lo) =>
    by_cases hc : pairLE lo b = frameCrc h d
    · rw [rxStep_chk_match p b h d lo hc]; rfl
    · rw [rxStep_chk_differ p b h d lo hc]; rfl

end Receive

section Transmit

variable (s : State)

/-- Starting a frame opens it with at least one payload byte to come, or not at all (R133). -/
theorem startFrame_wf (n : Byte) (hx : txWf s.txs = true) : txWf (s.startFrame n).txs = true := by
  by_cases hn : n = 0#8
  · subst hn; exact hx
  · have hpos : n.toNat ≠ 0 := toNat_ne_of_ne hn
    rw [startFrame_open s n hn]
    exact decide_eq_true (by omega)

/-- A frame that stays open after a payload byte has at least one more to come (R134). -/
theorem sendPayload_wf (rem : Byte) (c : Halfword) (b : Byte) (hrem : 1 ≤ rem.toNat) :
    txWf (s.sendPayload rem c b).txs = true := by
  by_cases hr : rem = 1#8
  · subst hr; rfl
  · have hne : rem.toNat ≠ 1 := toNat_ne_of_ne hr
    rw [sendPayload_more s rem c b hr, State.emit_txs, State.setTxs_txs, txWf, rem_sub_one rem hrem]
    exact decide_eq_true (by omega)

end Transmit

section Invariant

variable (i : Instr) (s : State)

theorem effect_rxWf (hr : rxWf s.params s.rxs = true) : rxWf s.params (effect i s).rxs = true := by
  by_cases hi : ∃ b, i = .rxByte b
  · obtain ⟨b, rfl⟩ := hi
    rw [effect_rxByte_rxs]
    exact rxStep_wf s.params b s.rxs hr
  · rwa [(effect_of_not_rxByte s i (not_exists.mp hi)).1]

theorem effect_txWf (hx : txWf s.txs = true) : txWf (effect i s).txs = true := by
  cases i with
  | txLen n =>
    by_cases h : s.txs = .idle
    · rw [effect_txLen_idle n h]; exact startFrame_wf s n hx
    · rw [effect_txLen_open n h]; exact hx
  | txData b =>
    cases h : s.txs with
    | idle => rw [effect_txData_idle b h]; exact hx
    | pay rem c =>
      rw [h] at hx
      rw [effect_txData_open b h]; exact sendPayload_wf s rem c b (of_decide_eq_true hx)
  | _ => exact hx

end Invariant

/-- Settles O33: each operation keeps R25 (`effect_rxWf`) and R29's range of `rem` (`effect_txWf`). -/
theorem stepKeepsTheFramersWellFormed : Obligations.StepKeepsTheFramersWellFormed := by
  intro s t hs h
  refine step_keeps (I := FramersWf) (fun _ _ hu => hu) (fun _ hu => hu) (fun i u hu => ?_)
    (fun u _ => ⟨rfl, rfl⟩) hs h
  obtain ⟨hr, hx⟩ := hu
  refine ⟨?_, effect_txWf i u hx⟩
  rw [State.recordOut_params, effect_params]
  exact effect_rxWf i u hr

/-- Settles O34. -/
theorem resetHasTheFramersWellFormed : Obligations.ResetHasTheFramersWellFormed :=
  fun _ => ⟨rfl, rfl⟩

/-- Settles O46: a frame comes out of a matching checksum only, and R25 gives the rest. -/
theorem emittedFramesAreValid : Obligations.EmittedFramesAreValid := by
  rintro s t f ⟨hr, -⟩ h hf
  obtain rfl | ⟨_, es, i, -, -, rfl⟩ | ⟨es, rfl⟩ := step_next_cases h
  · cases hf
  · by_cases hi : ∃ b, i = .rxByte b
    · obtain ⟨b, rfl⟩ := hi
      replace hf : (rxStep s.params s.rxs b).frame = some f := hf
      obtain ⟨h, d, lo, hrxs, hcrc, rfl⟩ := rxStep_frame s.params b s.rxs f hf
      rw [hrxs] at hr
      obtain ⟨hv, hmax, hlen⟩ := (rxWf_chk s.params h d (some lo)).mp hr
      exact ⟨hv, hmax, hlen, hcrc, by simp [effect_rxByte_out, hf]⟩
    · obtain ⟨-, -, -, hnone⟩ := effect_of_not_rxByte s i (not_exists.mp hi)
      exact absurd (hf.symm.trans hnone) (by simp)
  · cases hf

/-- Settles O43: RX.BYTE counts by `rxStep_hdrErr_iff` and `rxStep_crcErr_iff`, every other operation not at all. -/
theorem errorCountersCountDiscards : Obligations.ErrorCountersCountDiscards := by
  intro s e es ⟨hr, _⟩ hp headerDiscard checksumDiscard
  have hreads : exec (.rd 0x02#8) s = .next { s with out := { rd := some s.hdrErr } } ∧
      exec (.rd 0x03#8) s = .next { s with out := { rd := some s.crcErr } } :=
    ⟨exec_rd_of_readReg rfl, exec_rd_of_readReg rfl⟩
  by_cases he : e = .reset
  · subst he
    refine ⟨_, step_of_reset hp, fun _ => ⟨rfl, rfl⟩, ?_, fun _ h => absurd rfl h, ?_, fun _ h => absurd rfl h,
      hreads⟩
    · rintro ⟨_, _, _, _, h, -⟩; cases h
    · rintro ⟨_, _, _, _, h, -⟩; cases h
  · obtain ⟨i, hi⟩ := Event.exists_instr he
    refine ⟨_, step_of_instr hp hi, fun h => absurd h he, ?_⟩
    by_cases hrx : ∃ b, i = .rxByte b
    · obtain ⟨b, rfl⟩ := hrx
      have hhdr : headerDiscard ↔ (rxStep s.params s.rxs b).hdrErr = true := by
        simp [headerDiscard, hi, rxStep_hdrErr_iff s.params b s.rxs hr]
      have hchk : checksumDiscard ↔ (rxStep s.params s.rxs b).crcErr = true := by
        simp [checksumDiscard, hi, rxStep_crcErr_iff]
      rw [hhdr, hchk]
      have hh := effect_rxByte_hdrErr s b
      have hc := effect_rxByte_crcErr s b
      exact ⟨fun h => hh.trans (if_pos h), fun h _ => hh.trans (if_neg h), fun h => hc.trans (if_pos h),
        fun h _ => hc.trans (if_neg h), hreads⟩
    · have hno : ∀ b, e.instr ≠ some (.rxByte b) := fun b h => hrx ⟨b, Option.some.inj (hi.symm.trans h)⟩
      obtain ⟨-, hh, hc, -⟩ := effect_of_not_rxByte s i (not_exists.mp hrx)
      exact ⟨fun ⟨b, _, _, _, h, _⟩ => absurd h (hno b), fun _ _ => hh,
        fun ⟨b, _, _, _, h, _⟩ => absurd h (hno b), fun _ _ => hc, hreads⟩

end Sys2Proof.Machine
end

section
/-! SUPPORT. An open frame against the bytes already given to the transmitter (R29, R133, R134). -/

namespace Sys2Proof.Machine

section OpenFrame

variable (s : State) (tx : List Byte)

/-- R114 law (b): one more byte is one more step. -/
theorem crc16_append_singleton (xs : List Byte) (b : Byte) : crc16 (xs ++ [b]) = crcStep (crc16 xs) b := by
  simp [crc16]

/-- TX.LEN from TxIdle opens a frame with marker and header sent and no payload yet, or leaves TXS idle. -/
theorem startFrame_matches (n : Byte) (h : s.txs = .idle) :
    OpenFrameMatches s.params (tx ++ (s.startFrame n).out.tx) (s.startFrame n).txs := by
  by_cases hn : n = 0#8
  · subst hn
    rw [startFrame_empty, State.emit_txs, h]
    trivial
  · have hpos : n.toNat ≠ 0 := toNat_ne_of_ne hn
    rw [startFrame_open s n hn]
    refine ⟨tx, txHeader s.params s.txType s.txSeq n, [], ?_, rfl, Nat.zero_add _, by omega, rfl⟩
    simp [txPreamble, marker1, marker2]

/-- TX.DATA from TxPay adds its byte to the payload sent and to the checksum, or closes the frame. -/
theorem sendPayload_matches (rem : Byte) (c : Halfword) (b : Byte)
    (h : OpenFrameMatches s.params tx (.pay rem c)) :
    OpenFrameMatches s.params (tx ++ (s.sendPayload rem c b).out.tx) (s.sendPayload rem c b).txs := by
  obtain ⟨before, hd, sent, htx, hv, hlen, hpos, hcrc⟩ := h
  by_cases hr : rem = 1#8
  · subst hr; trivial
  · have hne : rem.toNat ≠ 1 := toNat_ne_of_ne hr
    have hrem := rem_sub_one rem hpos
    rw [sendPayload_more s rem c b hr]
    refine ⟨before, hd, sent ++ [b], ?_, hv, ?_, ?_, ?_⟩
    · simp [htx]
    · rw [hrem, List.length_append, List.length_singleton]; omega
    · rw [hrem]; omega
    · rw [hcrc, ← crc16_append_singleton, List.append_assoc]

/-- Every operation keeps R29's reading of TxPay, its own bytes counted in. -/
theorem effect_matches (i : Instr) (h : OpenFrameMatches s.params tx s.txs) :
    OpenFrameMatches s.params (tx ++ (effect i s).out.tx) (effect i s).txs := by
  have hsilent : OpenFrameMatches s.params (tx ++ []) s.txs := by rwa [List.append_nil]
  cases i with
  | txLen n =>
    by_cases hx : s.txs = .idle
    · rw [effect_txLen_idle n hx]; exact startFrame_matches s tx n hx
    · rw [effect_txLen_open n hx]; exact hsilent
  | txData b =>
    cases hx : s.txs with
    | idle => rw [effect_txData_idle b hx]; exact hsilent
    | pay rem c => rw [effect_txData_open b hx]; exact sendPayload_matches s tx rem c b (hx ▸ h)
  | _ => exact hsilent

end OpenFrame

/-- Settles O35, by `effect_matches` for the operation of the step. -/
theorem openFrameTracksTheTransmittedBytes : Obligations.OpenFrameTracksTheTransmittedBytes := by
  refine ⟨fun s t hs h => ?_, fun _ => trivial⟩
  refine step_keeps (I := fun u => OpenFrameMatches u.params u.run.tx u.txs) (fun _ _ hu => hu) (fun _ hu => hu)
    (fun i u hu => ?_) (fun _ _ => trivial) hs h
  rw [State.recordOut_run, State.recordOut_params, effect_params, effect_run]
  exact effect_matches u u.run.tx i hu

end Sys2Proof.Machine
end

section
/-! SUPPORT. The reserved words of R93, the sticky bits in STATUS (R30, R33), and the steps and reads of the first rules
of 10_state.md (R21, R22, R40). -/

namespace Sys2Proof.Machine

/-- An opcode selects a reserved operation exactly when it lies in a range of R93. -/
theorem decodeFields_reserved_iff (opc imm : Byte) :
    (∃ o b, decodeFields opc imm = .reserved o b) ↔ reservedOpcode opc = true := by
  cases h : reservedOpcode opc with
  | false =>
    have hmem := (opcode_defined_or_reserved opc).mpr h
    simp only [List.mem_cons, List.not_mem_nil, or_false] at hmem
    rcases hmem with rfl | rfl | rfl | rfl | rfl | rfl | rfl | rfl | rfl <;> simp [decodeFields]
  | true =>
    unfold decodeFields
    split
    case h_10 => simp
    all_goals simp_all [reservedOpcode]

theorem decodeWord_reserved_iff (w : Halfword) :
    (∃ o b, decodeWord w = .reserved o b) ↔ reservedOpcode ((w >>> 8).setWidth 8) = true := by
  rw [decodeWord, decodeFields_reserved_iff, opcodeField_eq_shift]

/-- An event performs a reserved operation exactly when it is a reserved command word. -/
theorem Event.instr_reserved_iff (e : Event) :
    (∃ o b, e.instr = some (.reserved o b)) ↔
      ∃ w : Halfword, e = .cmd w ∧ reservedOpcode ((w >>> 8).setWidth 8) = true := by
  cases e <;> simp [← decodeWord_reserved_iff]

/-- A flag shows at its own bit and at no other. -/
theorem flagAt_getLsbD (b : Bool) (k j : Nat) (hj : j < 16) : (flagAt b k).getLsbD j = (b && decide (j = k)) := by
  cases b with
  | false => simp [flagAt]
  | true =>
    have hbit : (!decide (j < k) && decide (j - k = 0)) = decide (j = k) := by
      rw [Bool.eq_iff_iff]
      simp only [Bool.and_eq_true, Bool.not_eq_true', decide_eq_true_eq, decide_eq_false_iff_not]
      omega
    simpa [flagAt, hj] using hbit

/-- RXST stays within bits 1:0 (R33). -/
theorem code_getLsbD (r : RxState) (j : Nat) (hj : 2 ≤ j) : r.code.getLsbD j = false := by
  have hlt : r.code.toNat < 2 ^ 2 := by cases r <;> simp [RxState.code]
  exact Nat.testBit_lt_two_pow (hlt.trans_le (Nat.pow_le_pow_right (by decide) hj))

/-- ILLCMD is bit 4 of STATUS and TXERR bit 5 (R33). -/
theorem status_stickyBits (s : State) : s.status.getLsbD 4 = s.illCmd ∧ s.status.getLsbD 5 = s.txErr := by
  simp only [State.status, BitVec.getLsbD_or, code_getLsbD, flagAt_getLsbD, Nat.reduceLT, Nat.reduceLeDiff]
  simp

/-- Settles O42, by `effect_illCmd` and `effect_txErr` for the event's operation. -/
theorem stickyBitsAreSetAndHeld : Obligations.StickyBitsAreSetAndHeld := by
  intro s e es hp
  have hread : ∃ v, exec (.rd 0x01#8) s = .next { s with out := { rd := some v } } ∧
      v.getLsbD 4 = s.illCmd ∧ v.getLsbD 5 = s.txErr := ⟨s.status, exec_rd_of_readReg rfl, status_stickyBits s⟩
  by_cases he : e = .reset
  · subst he
    exact ⟨_, step_of_reset hp, fun _ => ⟨rfl, rfl⟩, fun h => absurd rfl h, hread⟩
  · obtain ⟨i, hi⟩ := Event.exists_instr he
    refine ⟨_, step_of_instr hp hi, fun h => absurd h he, fun _ => ⟨?_, ?_⟩, hread⟩
    · rw [← Event.instr_reserved_iff, hi]
      simpa using effect_illCmd s i
    · rw [hi]
      simpa using effect_txErr s i

theorem status_resetFor (p : Params) : (State.resetFor p).status = 0#16 :=
  show 0#16 ||| flagAt false 2 ||| flagAt false 3 ||| flagAt false 4 ||| flagAt false 5 = 0#16 by decide

theorem readReg_txHdr_resetFor (p : Params) : (State.resetFor p).readReg .txHdr = 0#16 :=
  (readReg_txHdr _).trans (show (0#8 ++ 0#8 : Halfword) = 0#16 by decide)

/-- Settles O1: each register of R32 reads its component of the reset state, CONFIG the two parameter bytes. -/
theorem resetStateIsTheTable : Obligations.ResetStateIsTheTable := by
  refine ⟨rfl, fun p => ⟨rfl, rfl, rfl, rfl, rfl, rfl, rfl, rfl, rfl, rfl, ?_⟩⟩
  exact ⟨exec_rd_of_readReg rfl, exec_rd_of_readReg (status_resetFor p), exec_rd_of_readReg rfl,
    exec_rd_of_readReg rfl, exec_rd_of_readReg rfl, exec_rd_of_readReg (readReg_config _),
    exec_rd_of_readReg (readReg_txHdr_resetFor p)⟩

/-- Settles O18. -/
theorem stepRunsTheDecodedCommand : Obligations.StepRunsTheDecodedCommand := by
  rintro s w i es hp rfl -
  rw [step_of_pending s _ es hp, exec_eq_effect]
  rfl

/-- Settles O19: both events have the action of RX.BYTE. -/
theorem receivedByteActsAsRxByte : Obligations.ReceivedByteActsAsRxByte := by
  intro s b es
  have hw : decodeWord (0x10#8 ++ b) = .rxByte b := decodeWord_append _ _
  have hrx : step { s with pending := .rx b :: es } = _ := step_of_instr rfl (Event.instr_rx b)
  have hcmd : step { s with pending := .cmd (0x10#8 ++ b) :: es } = _ := step_of_instr rfl (congrArg some hw)
  rw [hrx, hcmd]
  rfl

end Sys2Proof.Machine
end

section
/-! SUPPORT. The parts of the block (R71): each part sees its own operations and resets of a run and nothing else, by one
unwinding argument for all three parts. -/

namespace Sys2Proof.Machine

section Parts

/-! ### A run as a part sees it -/

/-- What an event does, by what is seen of it: an operation with its output recorded, or reset. -/
def perform (v : Option Instr) (s : State) : State :=
  match v with
  | some i => (effect i s).recordOut
  | none => s.applyReset

theorem after_eq_perform (e : Event) : after e = perform e.instr := by
  cases e <;> rfl

/-- A part sees an event of its own, reset included, as what the event performs, and of a foreign one nothing. -/
theorem partView_cases (own : Instr → Bool) (e : Event) :
    (partView own e = some e.instr ∧ ∀ i, e.instr = some i → own i = true) ∨
    (partView own e = none ∧ ∃ i, e.instr = some i ∧ own i = false) := by
  by_cases he : e = .reset
  · subst he; exact .inl ⟨rfl, by simp⟩
  · obtain ⟨i, hi⟩ := Event.exists_instr he
    have hv : partView own e = if own i then some (some i) else none := by
      cases e with
      | reset => exact absurd rfl he
      | _ => cases hi; rfl
    cases ho : own i with
    | true => exact .inl (by simp [hv, hi, ho])
    | false => exact .inr ⟨by simp [hv, ho], i, hi, ho⟩

/-- A part of the block with the operations `own`. A foreign operation leaves it as it is and puts out nothing of its
kind; what its own operations and reset do to it depends on it alone (R71). -/
structure Part (own : Instr → Bool) (α β : Type) where
  /-- The components the part holds or reads. -/
  view : State → α
  /-- What one output record holds of the part's kind. -/
  put : Output → List β
  /-- The stream of a run that collects it. -/
  given : Streams → List β
  view_recordOut : ∀ s, view s.recordOut = view s
  given_record : ∀ r o, given (r.record o) = given r ++ put o
  foreign : ∀ i s, own i = false → view (effect i s) = view s ∧ put (effect i s).out = []
  own_congr : ∀ i s t, own i = true → view s = view t →
    view (effect i s) = view (effect i t) ∧ (effect i s).out = (effect i t).out
  reset_congr : ∀ s t, view s = view t → view s.applyReset = view t.applyReset

variable {own : Instr → Bool} {α β : Type} (P : Part own α β)

/-- From `s` and `t`, two runs that ended in `s'` and `t'` gave the same and left the part the same. -/
def Part.Agree (s t s' t' : State) : Prop :=
  P.view s' = P.view t' ∧ ∃ out, P.given s'.run = P.given s.run ++ out ∧ P.given t'.run = P.given t.run ++ out

theorem Part.Agree.trans {P : Part own α β} {s t s' t' s'' t'' : State} (h : P.Agree s t s' t')
    (h' : P.Agree s' t' s'' t'') : P.Agree s t s'' t'' := by
  obtain ⟨-, out, hs, ht⟩ := h
  obtain ⟨hv, out', hs', ht'⟩ := h'
  exact ⟨hv, out ++ out', by rw [hs', hs, List.append_assoc], by rw [ht', ht, List.append_assoc]⟩

/-- Two runs that each agree with a third from one start agree with each other. -/
theorem Part.Agree.join {P : Part own α β} {s t s' t' u : State} (h : P.Agree s t s' u) (h' : P.Agree t t t' u) :
    P.Agree s t s' t' := by
  obtain ⟨hv, out, hs, hu⟩ := h
  obtain ⟨hv', out', ht, hu'⟩ := h'
  obtain rfl : out = out' := List.append_cancel_left (hu.symm.trans hu')
  exact ⟨hv.trans hv'.symm, out, hs, ht⟩

theorem Part.agree_refl {s t : State} (h : P.view s = P.view t) : P.Agree s t s t :=
  ⟨h, [], by simp, by simp⟩

theorem Part.foreign_agree {i : Instr} {s t : State} (hi : own i = false) (h : P.view s = P.view t) :
    P.Agree s t (perform (some i) s) t := by
  obtain ⟨hv, hput⟩ := P.foreign i s hi
  refine ⟨(P.view_recordOut _).trans (hv.trans h), [], ?_, by simp⟩
  simp [perform, P.given_record, hput]

theorem Part.own_agree {v : Option Instr} {s t : State} (hv : ∀ i, v = some i → own i = true)
    (h : P.view s = P.view t) : P.Agree s t (perform v s) (perform v t) := by
  cases v with
  | none => exact ⟨P.reset_congr s t h, [], by simp [perform], by simp [perform]⟩
  | some i =>
    obtain ⟨hview, hout⟩ := P.own_congr i s t (hv i rfl) h
    refine ⟨by simpa only [perform, P.view_recordOut] using hview, P.put (effect i s).out, ?_, ?_⟩
    · simp [perform, P.given_record]
    · simp [perform, P.given_record, hout]

/-- A run agrees with the performance of what the part sees of it. -/
theorem Part.run_agree_view (es : List Event) {s t : State} (h : P.view s = P.view t) :
    P.Agree s t (es.foldl (fun u e => after e u) s)
      ((es.filterMap (partView own)).foldl (fun u v => perform v u) t) := by
  induction es generalizing s t with
  | nil => exact P.agree_refl h
  | cons e es ih =>
    rw [List.foldl_cons, after_eq_perform]
    obtain ⟨hv, hown⟩ | ⟨hv, i, hi, hf⟩ := partView_cases own e
    · rw [List.filterMap_cons_some hv]
      have hstep := P.own_agree hown h
      exact hstep.trans (ih hstep.1)
    · rw [List.filterMap_cons_none hv, hi]
      have hstep := P.foreign_agree hf h
      exact hstep.trans (ih hstep.1)

/-- R71: two runs in which a part sees the same, from states that agree on it, leave it the same and give the same. -/
theorem Part.runs_agree {s₁ s₂ : State} {es₁ es₂ : List Event} (h : P.view s₁ = P.view s₂)
    (hes : es₁.filterMap (partView own) = es₂.filterMap (partView own)) :
    ∃ t₁ t₂, runEvents es₁ s₁ = .next t₁ ∧ runEvents es₂ s₂ = .next t₂ ∧ P.Agree s₁ s₂ t₁ t₂ :=
  ⟨_, _, runEvents_eq es₁ s₁, runEvents_eq es₂ s₂,
    (hes ▸ P.run_agree_view es₁ h).join (P.run_agree_view es₂ rfl)⟩

end Parts

/-! ### The receive framer -/

theorem ne_rxByte_of_not_rxOp {i : Instr} (hi : isRxOp i = false) (b : Byte) : i ≠ .rxByte b :=
  fun hb => by simp [hb, isRxOp] at hi

/-- What the receive framer holds or reads: RXS, the two counters, the parameters (R71, R150). -/
def State.rxView (s : State) : Params × RxState × Halfword × Halfword := (s.params, s.rxs, s.hdrErr, s.crcErr)

theorem rxView_eq_iff {s t : State} : s.rxView = t.rxView ↔
    s.params = t.params ∧ s.rxs = t.rxs ∧ s.hdrErr = t.hdrErr ∧ s.crcErr = t.crcErr := by
  simp only [State.rxView, Prod.mk.injEq]

/-- RX.BYTE reads nothing beyond the receive framer (R150). -/
theorem effect_rxByte_congr {s t : State} (b : Byte) (h : s.rxView = t.rxView) :
    (effect (.rxByte b) s).rxView = (effect (.rxByte b) t).rxView ∧
      (effect (.rxByte b) s).out = (effect (.rxByte b) t).out := by
  obtain ⟨hp, hr, hh, hc⟩ := rxView_eq_iff.mp h
  simp [rxView_eq_iff, effect_rxByte_rxs, effect_rxByte_hdrErr, effect_rxByte_crcErr, effect_rxByte_out, hp, hr, hh, hc]

/-- The receive framer, whose outputs are frames. -/
def rxPart : Part isRxOp (Params × RxState × Halfword × Halfword) Frame where
  view := State.rxView
  put o := o.frame.toList
  given r := r.frames
  view_recordOut _ := rfl
  given_record _ _ := rfl
  foreign i s hi := by
    obtain ⟨hrxs, hhdr, hcrc, hframe⟩ := effect_of_not_rxByte s i (ne_rxByte_of_not_rxOp hi)
    exact ⟨rxView_eq_iff.mpr ⟨effect_params i s, hrxs, hhdr, hcrc⟩, by simp [hframe]⟩
  own_congr i s t hi h := by
    cases i with
    | rxByte b => exact effect_rxByte_congr b h
    | _ => cases hi
  reset_congr s t h := rxView_eq_iff.mpr ⟨(rxView_eq_iff.mp h).1, rfl, rfl, rfl⟩

/-! ### The CRC engine -/

/-- The CRC engine, which holds CRC and puts nothing into the streams. -/
def crcPart : Part isCrcOp Halfword Empty where
  view s := s.crc
  put _ := []
  given _ := []
  view_recordOut _ := rfl
  given_record _ _ := rfl
  foreign i s hi := ⟨effect_crc_of_not_crcOp s i hi, rfl⟩
  own_congr i s t hi h := by
    cases i with
    | crcInit _ => exact ⟨rfl, rfl⟩
    | crcByte b => exact ⟨congrArg (crcStep · b) h, rfl⟩
    | _ => cases hi
  reset_congr _ _ _ := rfl

/-! ### The transmit framer -/

/-- What the transmit framer holds or reads: TXS, the latches, TXERR, the parameters (R71, R130). -/
def State.txView (s : State) : Params × TxState × Byte × Byte × Bool :=
  (s.params, s.txs, s.txType, s.txSeq, s.txErr)

theorem txView_eq_iff {s t : State} : s.txView = t.txView ↔
    s.params = t.params ∧ s.txs = t.txs ∧ s.txType = t.txType ∧ s.txSeq = t.txSeq ∧ s.txErr = t.txErr := by
  simp only [State.txView, Prod.mk.injEq]

/-- A command out of sequence looks at nothing (R133, R134). -/
theorem txOutOfSequence_congr {s t : State} (h : s.txView = t.txView) :
    s.txOutOfSequence.txView = t.txOutOfSequence.txView := by
  obtain ⟨hp, hx, ht, hq, -⟩ := txView_eq_iff.mp h
  exact txView_eq_iff.mpr ⟨hp, hx, ht, hq, rfl⟩

/-- Starting a frame reads nothing beyond the transmit framer (R133). -/
theorem startFrame_congr {s t : State} (n : Byte) (h : s.txView = t.txView) :
    (s.startFrame n).txView = (t.startFrame n).txView ∧ (s.startFrame n).out = (t.startFrame n).out := by
  obtain ⟨hp, hx, ht, hq, he⟩ := txView_eq_iff.mp h
  by_cases hn : n = 0#8
  · subst hn; simp [txView_eq_iff, startFrame_empty, hp, hx, ht, hq, he]
  · simp [txView_eq_iff, startFrame_open _ n hn, hp, ht, hq, he]

/-- Sending a payload byte reads nothing beyond the transmit framer (R134). -/
theorem sendPayload_congr {s t : State} (rem : Byte) (c : Halfword) (b : Byte) (h : s.txView = t.txView) :
    (s.sendPayload rem c b).txView = (t.sendPayload rem c b).txView ∧
      (s.sendPayload rem c b).out = (t.sendPayload rem c b).out := by
  obtain ⟨hp, -, ht, hq, he⟩ := txView_eq_iff.mp h
  by_cases hr : rem = 1#8
  · subst hr; simp [txView_eq_iff, sendPayload_last, hp, ht, hq, he]
  · simp [txView_eq_iff, sendPayload_more _ rem c b hr, hp, ht, hq, he]

/-- The TX operations read nothing beyond the transmit framer (R131 to R134). -/
theorem effect_txOp_congr {i : Instr} {s t : State} (hi : isTxOp i = true) (h : s.txView = t.txView) :
    (effect i s).txView = (effect i t).txView ∧ (effect i s).out = (effect i t).out := by
  obtain ⟨hp, hx, ht, hq, he⟩ := txView_eq_iff.mp h
  cases i with
  | txType v => exact ⟨txView_eq_iff.mpr ⟨hp, hx, rfl, hq, he⟩, rfl⟩
  | txSeq v => exact ⟨txView_eq_iff.mpr ⟨hp, hx, ht, rfl, he⟩, rfl⟩
  | txLen n =>
    by_cases hidle : t.txs = .idle
    · rw [effect_txLen_idle n (hx.trans hidle), effect_txLen_idle n hidle]
      exact startFrame_congr n h
    · rw [effect_txLen_open n (hx ▸ hidle), effect_txLen_open n hidle]
      exact ⟨txOutOfSequence_congr h, rfl⟩
  | txData b =>
    cases hs : t.txs with
    | idle =>
      rw [effect_txData_idle b (hx.trans hs), effect_txData_idle b hs]
      exact ⟨txOutOfSequence_congr h, rfl⟩
    | pay rem c =>
      rw [effect_txData_open b (hx.trans hs), effect_txData_open b hs]
      exact sendPayload_congr rem c b h
  | _ => cases hi

/-- The transmit framer, whose outputs are bytes. -/
def txPart : Part isTxOp (Params × TxState × Byte × Byte × Bool) Byte where
  view := State.txView
  put o := o.tx
  given r := r.tx
  view_recordOut _ := rfl
  given_record _ _ := rfl
  foreign i s hi := by
    cases i with
    | txType _ | txSeq _ | txLen _ | txData _ => cases hi
    | _ => exact ⟨rfl, rfl⟩
  own_congr _ _ _ hi h := effect_txOp_congr hi h
  reset_congr s t h := txView_eq_iff.mpr ⟨(txView_eq_iff.mp h).1, rfl, rfl, rfl, rfl⟩

/-- Settles O36: `Part.runs_agree` for the receive framer. -/
theorem receiveDependsOnlyOnReceivedBytes : Obligations.ReceiveDependsOnlyOnReceivedBytes := by
  intro s₁ s₂ es₁ es₂ hp hr hh hc hes
  obtain ⟨t₁, t₂, h₁, h₂, hv, fs, hf₁, hf₂⟩ := rxPart.runs_agree (rxView_eq_iff.mpr ⟨hp, hr, hh, hc⟩) hes
  obtain ⟨-, hr', hh', hc'⟩ := rxView_eq_iff.mp hv
  exact ⟨t₁, t₂, fs, h₁, h₂, hr', hh', hc', hf₁, hf₂⟩

/-- Settles O38: `Part.runs_agree` for the transmit framer. -/
theorem transmitDependsOnlyOnTxOperations : Obligations.TransmitDependsOnlyOnTxOperations := by
  intro s₁ s₂ es₁ es₂ hp hx ht hq he hes
  obtain ⟨t₁, t₂, h₁, h₂, hv, bs, hb₁, hb₂⟩ := txPart.runs_agree (txView_eq_iff.mpr ⟨hp, hx, ht, hq, he⟩) hes
  obtain ⟨-, hx', ht', hq', he'⟩ := txView_eq_iff.mp hv
  exact ⟨t₁, t₂, bs, h₁, h₂, hx', ht', hq', he', hb₁, hb₂⟩

/-- Settles O37: `Part.runs_agree` for the CRC engine. -/
theorem crcDependsOnlyOnCrcOperations : Obligations.CrcDependsOnlyOnCrcOperations := by
  intro s₁ s₂ es₁ es₂ hc hes
  obtain ⟨t₁, t₂, h₁, h₂, hc', -⟩ := crcPart.runs_agree hc hes
  exact ⟨t₁, t₂, h₁, h₂, hc'⟩

end Sys2Proof.Machine
end

section
/-! SUPPORT. Reception against the host's operations (R71, R195), the checksum's byte order (R62, R65), and reads without
effect (R68). -/

namespace Sys2Proof.Machine

/-! ### A received byte and a host operation -/

theorem effect_rxByte (b : Byte) (s : State) : effect (.rxByte b) s = s.acceptRx (rxStep s.params s.rxs b) := rfl

/-- A host operation other than RX.BYTE and RD neither reads nor writes what a reception writes (R71). -/
theorem effect_after_reception {i : Instr} (hrx : isRxOp i = false) (hrd : ∀ k, i ≠ .rd k) (x : RxResult) (s : State) :
    effect i (s.acceptRx x).recordOut =
      { (effect i s).acceptRx x with out := (effect i s).out, run := s.run.record { frame := x.frame } } := by
  cases i with
  | rxByte _ => cases hrx
  | rd k => exact absurd rfl (hrd k)
  | txLen n =>
    by_cases h : s.txs = .idle
    · rw [effect_txLen_idle n h, effect_txLen_idle n (s := (s.acceptRx x).recordOut) h]
      simp only [State.startFrame]; split <;> rfl
    · rw [effect_txLen_open n h, effect_txLen_open n (s := (s.acceptRx x).recordOut) h]; rfl
  | txData b =>
    cases h : s.txs with
    | idle => rw [effect_txData_idle b h, effect_txData_idle b (s := (s.acceptRx x).recordOut) h]; rfl
    | pay rem c =>
      rw [effect_txData_open b h, effect_txData_open b (s := (s.acceptRx x).recordOut) h]
      simp only [State.sendPayload]; split <;> rfl
  | _ => rfl

/-- A frame alone and a record without a frame join the streams in either order. -/
theorem Streams.record_frame_comm (r : Streams) (f : Option Frame) {o : Output} (ho : o.frame = Option.none) :
    (r.record { frame := f }).record o = (r.record o).record { frame := f } := by
  simp [Streams.record, ho]

/-- Settles O39: the received byte has the same result in both orders, since the host operation leaves RXS as it is, and
what the two put out goes to different streams. -/
theorem receptionCommutesWithHostOperations : Obligations.ReceptionCommutesWithHostOperations := by
  intro s b w hrx hrd
  refine ⟨_, _, runEvents_eq _ s, runEvents_eq _ s, ?_⟩
  simp only [List.foldl_cons, List.foldl_nil, after_of_instr (Event.instr_rx b), after_of_instr (Event.instr_cmd w)]
  generalize decodeWord w = i at hrx hrd
  obtain ⟨hrxs, -, -, hframe⟩ := effect_of_not_rxByte s i (ne_rxByte_of_not_rxOp hrx)
  have hx : rxStep (effect i s).recordOut.params (effect i s).recordOut.rxs b = rxStep s.params s.rxs b := by
    simp [hrxs]
  rw [effect_rxByte, effect_rxByte, hx, effect_after_reception hrx hrd]
  simp only [State.recordOut, State.acceptRx_out, effect_run]
  rw [Streams.record_frame_comm _ _ hframe]
  rfl

/-! ### The checksum's two bytes -/

/-- Settles O28, by the laws of `lo8`, `hi8` and `pairLE`. -/
theorem checksumIsLittleEndian : Obligations.ChecksumIsLittleEndian := by
  refine ⟨fun c => ?_, fun lo hi => ⟨pairLE_eq_append lo hi, ?_⟩, fun c lo hi h => ?_⟩
  · rw [checksumBytes, lo8_eq_setWidth, hi8_eq_shift]
  · rw [checksumBytes, pairLE_eq_append, lo8_append, hi8_append]
  · simp only [checksumBytes, List.cons.injEq, and_true] at h
    obtain ⟨rfl, rfl⟩ := h
    exact pairLE_lo8_hi8 c

/-! ### Reads -/

/-- A read adds its value to the reads of the run and changes nothing else but the output record (R68, R181). -/
theorem after_host_rd (k : Byte) (s : State) :
    after (host (.rd k)) s = { s with
      out := { rd := some (s.readReg (Reg.ofIndex k)) }
      run := { s.run with reads := s.run.reads ++ [s.readReg (Reg.ofIndex k)] } } := by
  have hi : (host (.rd k)).instr = some (.rd k) := congrArg some (decodeWord_append 0x30#8 k)
  rw [after_of_instr hi]
  simp [State.recordOut, effect, State.emit, Streams.record]

/-- Settles O50: the first read leaves every register as it is, so the second returns the same. -/
theorem readsHaveNoSideEffect : Obligations.ReadsHaveNoSideEffect := by
  intro s k
  refine ⟨s.readReg (Reg.ofIndex k), _, exec_rd_of_readReg rfl, runEvents_eq _ s, ?_⟩
  simp only [List.foldl_cons, List.foldl_nil, after_host_rd]
  rw [readReg_of_environment s _ s.pending]
  simp

end Sys2Proof.Machine
end

section
/-! SUPPORT. The command word and its two readings (R90 to R93): every word is the word of one well-formed operation. -/

namespace Sys2Proof

open Machine

/-- A reserved opcode is none of the nine that R92 matches. -/
theorem decodeFields_of_reserved {opc : Byte} (h : reservedOpcode opc = true) (imm : Byte) :
    decodeFields opc imm = .reserved opc imm := by
  unfold decodeFields
  split
  case h_10 => rfl
  all_goals simp_all [reservedOpcode]

theorem decodeFields_opcode_imm {i : Instr} (h : i.wf = true) : decodeFields i.opcode i.imm = i := by
  cases i with
  | reserved opc imm => exact decodeFields_of_reserved h imm
  | _ => rfl

/-- Every word is the command word of a well-formed operation: its opcode is reserved, or one of the nine of R92. -/
theorem exists_wf_encode_eq (w : Halfword) : ∃ i : Instr, i.wf = true ∧ encode i = w := by
  rw [← opcodeField_append_immField w]
  generalize opcodeField w = opc, immField w = imm
  cases h : reservedOpcode opc with
  | true => exact ⟨.reserved opc imm, h, rfl⟩
  | false =>
    have hmem := (opcode_defined_or_reserved opc).mpr h
    simp only [List.mem_cons, List.not_mem_nil, or_false] at hmem
    rcases hmem with rfl | rfl | rfl | rfl | rfl | rfl | rfl | rfl | rfl
    exacts [⟨.nop imm, rfl, rfl⟩, ⟨.crcInit imm, rfl, rfl⟩, ⟨.crcByte imm, rfl, rfl⟩, ⟨.rxByte imm, rfl, rfl⟩,
      ⟨.txType imm, rfl, rfl⟩, ⟨.txSeq imm, rfl, rfl⟩, ⟨.txLen imm, rfl, rfl⟩, ⟨.txData imm, rfl, rfl⟩,
      ⟨.rd imm, rfl, rfl⟩]

/-- Settles O15: the two fields of the word are the operation's opcode and operand, and they select it again. -/
theorem decodeInvertsEncode : Obligations.DecodeInvertsEncode := by
  intro i hwf
  rw [encode, decodeWord_append, decodeFields_opcode_imm hwf]

/-- Settles O16: the word is the word of a well-formed operation, and that operation is what it decodes to. -/
theorem encodeInvertsDecode : Obligations.EncodeInvertsDecode := by
  intro w
  obtain ⟨i, hwf, rfl⟩ := exists_wf_encode_eq w
  rw [decodeInvertsEncode i hwf]
  exact ⟨hwf, rfl⟩

/-- Settles O13: the nine opcodes are read off the fields, and the ranges of R93 are the complement of the nine. -/
theorem opcodeMapIsExact : Obligations.OpcodeMapIsExact := by
  refine ⟨fun b => ?_, fun w => ?_⟩
  · simp only [decodeWord_append]
    exact ⟨rfl, rfl, rfl, rfl, rfl, rfl, rfl, rfl, rfl⟩
  · rw [decodeWord_reserved_iff, opcode_defined_or_reserved, Bool.not_eq_false]

/-- Settles O14: twelve closed words, evaluated. -/
theorem writtenOutWordsDecode : Obligations.WrittenOutWordsDecode := by
  unfold Obligations.WrittenOutWordsDecode
  decide

end Sys2Proof
end

section
/-! SUPPORT. The assembler on the lines that `commandText` writes (R94): a line splits into its words, a written number
reads as its value, and each mnemonic selects its operation. -/

namespace Sys2Proof.Machine

/-! ### The words of a line -/

/-- A character that neither ends a word nor begins a comment. -/
def wordChar (c : Char) : Bool := c != ' ' && c != '\t' && c != ';'

/-- A word of a command line. -/
def isWord (l : List Char) : Bool := !l.isEmpty && l.all wordChar

theorem dropComment_of_no_semicolon {l : List Char} (h : ∀ c ∈ l, c ≠ ';') : dropComment l = l := by
  rw [dropComment, List.takeWhile_eq_self_iff]
  simpa using h

theorem isWord_iff (m : List Char) :
    isWord m = true ↔ m ≠ [] ∧ ∀ c ∈ m, c ≠ ' ' ∧ c ≠ '\t' ∧ c ≠ ';' := by
  simp [isWord, wordChar, and_assoc]

theorem ne_semicolon_of_isWord {m : List Char} (hm : isWord m = true) (c : Char) (hc : c ∈ m) : c ≠ ';' := by
  obtain ⟨-, hchars⟩ := (isWord_iff m).mp hm
  obtain ⟨-, -, hcomment⟩ := hchars c hc
  exact hcomment

/-- Characters other than blanks join the word being read. -/
theorem lineWords_append {m : List Char} (hm : ∀ c ∈ m, c ≠ ' ' ∧ c ≠ '\t' ∧ c ≠ ';') (cur rest : List Char) :
    lineWords cur (m ++ rest) = lineWords (cur ++ m) rest := by
  induction m generalizing cur with
  | nil => simp
  | cons c m ih =>
    obtain ⟨⟨hspace, htab, -⟩, hm⟩ := List.forall_mem_cons.mp hm
    simp [lineWords, hspace, htab, ih hm]

theorem lineWords_one {m : List Char} (hm : isWord m = true) : lineWords [] m = [m] := by
  obtain ⟨hne, hchars⟩ := (isWord_iff m).mp hm
  simpa [lineWords, hne] using lineWords_append hchars [] []

theorem lineWords_two {m o : List Char} (hm : isWord m = true) (ho : isWord o = true) :
    lineWords [] (m ++ ' ' :: o) = [m, o] := by
  obtain ⟨hne, hchars⟩ := (isWord_iff m).mp hm
  simp [lineWords_append hchars, lineWords, hne, lineWords_one ho]

theorem assembleLine_one {m : List Char} (hm : isWord m = true) :
    assembleLine m = (readCommand [m]).map fun w => [w] := by
  rw [assembleLine, dropComment_of_no_semicolon (ne_semicolon_of_isWord hm), lineWords_one hm]

theorem assembleLine_two {m o : List Char} (hm : isWord m = true) (ho : isWord o = true) :
    assembleLine (m ++ ' ' :: o) = (readCommand [m, o]).map fun w => [w] := by
  have hline : ∀ c ∈ m ++ ' ' :: o, c ≠ ';' := by
    simpa [or_imp, forall_and] using ⟨ne_semicolon_of_isWord hm, ne_semicolon_of_isWord ho⟩
  rw [assembleLine, dropComment_of_no_semicolon hline, lineWords_two hm ho]

/-! ### Written numbers -/

theorem hexDigit_hexChar : ∀ d < 16, hexDigit (hexChar d) = some d := by decide

theorem wordChar_hexChar : ∀ d < 16, wordChar (hexChar d) = true := by decide

/-- The digits `ds` after `0x`, as `byteText` and `wordText` write them. -/
def hexText (ds : List Nat) : List Char := '0' :: 'x' :: ds.map hexChar

/-- The value of the hexadecimal digits `ds` on top of the value `acc`. -/
def digitsValue (acc : Nat) (ds : List Nat) : Nat := ds.foldl (fun a d => a * 16 + d) acc

/-- The two digits of a byte. -/
def byteDigits (b : Byte) : List Nat := [b.toNat / 16, b.toNat % 16]

theorem byteText_eq_hexText (b : Byte) : byteText b = hexText (byteDigits b) := rfl

/-- The four digits of a command word. -/
def wordDigits (w : Halfword) : List Nat :=
  [w.toNat / 4096, w.toNat / 256 % 16, w.toNat / 16 % 16, w.toNat % 16]

theorem wordText_eq_hexText (w : Halfword) : wordText w = ".word".toList ++ ' ' :: hexText (wordDigits w) := rfl

theorem byteDigits_lt (b : Byte) : ∀ d ∈ byteDigits b, d < 16 := by
  simp [byteDigits]; omega

theorem wordDigits_lt (w : Halfword) : ∀ d ∈ wordDigits w, d < 16 := by
  simp [wordDigits]; omega

theorem isWord_hexText {ds : List Nat} (h : ∀ d ∈ ds, d < 16) : isWord (hexText ds) = true := by
  have hpre : wordChar '0' = true ∧ wordChar 'x' = true := by decide
  simpa [isWord, hexText, hpre] using fun d hd => wordChar_hexChar d (h d hd)

theorem isWord_byteText (b : Byte) : isWord (byteText b) = true := by
  rw [byteText_eq_hexText, isWord_hexText (byteDigits_lt b)]

theorem readDigits_map_hexChar {ds : List Nat} (h : ∀ d ∈ ds, d < 16) (acc : Nat) :
    readDigits 16 hexDigit acc (ds.map hexChar) = some (digitsValue acc ds) := by
  induction ds generalizing acc with
  | nil => rfl
  | cons d ds ih =>
    obtain ⟨hd, hds⟩ := List.forall_mem_cons.mp h
    simp [readDigits, hexDigit_hexChar d hd, ih hds, digitsValue]

/-- A written hexadecimal number reads as the value of its digits. -/
theorem readHex_hexText {ds : List Nat} (h : ∀ d ∈ ds, d < 16) :
    readHex ds.length (hexText ds) = some (digitsValue 0 ds) := by
  simp [hexText, readHex, readDigits_map_hexChar h]

theorem readByte_byteText (b : Byte) : readByte (byteText b) = some b := by
  have hval : digitsValue 0 (byteDigits b) = b.toNat := by
    simp [digitsValue, byteDigits, Nat.div_add_mod']
  have hread : readHex 2 (hexText (byteDigits b)) = some b.toNat := hval ▸ readHex_hexText (byteDigits_lt b)
  simp [byteText_eq_hexText, readByte, hread]

theorem readHex_wordDigits (w : Halfword) : readHex 4 (hexText (wordDigits w)) = some w.toNat := by
  have hval : digitsValue 0 (wordDigits w) = w.toNat := by
    simp [digitsValue, wordDigits]; omega
  exact hval ▸ readHex_hexText (wordDigits_lt w)

/-! ### The command lines -/

theorem assembleLine_wordText (w : Halfword) : assembleLine (wordText w) = some [w] := by
  have hread (o : List Char) : readCommand [".word".toList, o] = (readHex 4 o).map (BitVec.ofNat 16) := rfl
  rw [wordText_eq_hexText, assembleLine_two (by decide) (isWord_hexText (wordDigits_lt w)), hread, readHex_wordDigits]
  simp

theorem commandText_nop (imm : Byte) :
    commandText (.nop imm) = if imm = 0#8 then "NOP".toList else wordText (encode (.nop imm)) := rfl

theorem commandText_crcInit (imm : Byte) :
    commandText (.crcInit imm) = if imm = 0#8 then "CRC.INIT".toList else wordText (encode (.crcInit imm)) := rfl

theorem assembleLine_nop : assembleLine "NOP".toList = some [encode (.nop 0#8)] := by
  rw [assembleLine_one (by decide)]
  rfl

theorem assembleLine_crcInit : assembleLine "CRC.INIT".toList = some [encode (.crcInit 0#8)] := by
  rw [assembleLine_one (by decide)]
  rfl

theorem isWord_of_operandMnemonic {m : List Char} {mk : Byte → Instr} (h : (m, mk) ∈ operandMnemonics) :
    isWord m = true := by
  have hall : (operandMnemonics.map Prod.fst).all isWord = true := by decide
  exact List.all_eq_true.mp hall m (List.mem_map_of_mem h)

theorem readCommand_operandMnemonic {m : List Char} {mk : Byte → Instr} (h : (m, mk) ∈ operandMnemonics)
    (o : List Char) : readCommand [m, o] = (readByte o).map fun b => encode (mk b) := by
  simp only [operandMnemonics, List.mem_cons, Prod.mk.injEq, List.not_mem_nil, or_false] at h
  rcases h with ⟨rfl, rfl⟩ | ⟨rfl, rfl⟩ | ⟨rfl, rfl⟩ | ⟨rfl, rfl⟩ | ⟨rfl, rfl⟩ | ⟨rfl, rfl⟩ <;> rfl

theorem assembleLine_operandMnemonic {m : List Char} {mk : Byte → Instr} (h : (m, mk) ∈ operandMnemonics) (b : Byte) :
    assembleLine (m ++ ' ' :: byteText b) = some [encode (mk b)] := by
  rw [assembleLine_two (isWord_of_operandMnemonic h) (isWord_byteText b), readCommand_operandMnemonic h,
    readByte_byteText]
  rfl

/-- No register name begins with the digit of `0x`, so a written byte reads as a byte. -/
theorem readReg_byteText (b : Byte) : readReg (byteText b) = some b := readByte_byteText b

theorem assembleLine_rd (k : Byte) : assembleLine ("RD".toList ++ ' ' :: byteText k) = some [encode (.rd k)] := by
  have hread (o : List Char) : readCommand ["RD".toList, o] = (readReg o).map fun i => encode (.rd i) := rfl
  rw [assembleLine_two (by decide) (isWord_byteText k), hread, readReg_byteText]
  rfl

/-- Settles O17, line form by line form: one word, `.word`, a mnemonic with its operand byte, RD. -/
theorem assemblerReadsWhatItWrites : Obligations.AssemblerReadsWhatItWrites := by
  intro i _
  cases i with
  | nop imm =>
    by_cases h : imm = 0#8
    · rw [h, commandText_nop, if_pos rfl, assembleLine_nop]
    · rw [commandText_nop, if_neg h, assembleLine_wordText]
  | crcInit imm =>
    by_cases h : imm = 0#8
    · rw [h, commandText_crcInit, if_pos rfl, assembleLine_crcInit]
    · rw [commandText_crcInit, if_neg h, assembleLine_wordText]
  | reserved opc imm => exact assembleLine_wordText _
  | rd k => exact assembleLine_rd k
  | crcByte b => exact assembleLine_operandMnemonic (m := "CRC.BYTE".toList) (mk := .crcByte) (by simp [operandMnemonics]) b
  | rxByte b => exact assembleLine_operandMnemonic (m := "RX.BYTE".toList) (mk := .rxByte) (by simp [operandMnemonics]) b
  | txType t => exact assembleLine_operandMnemonic (m := "TX.TYPE".toList) (mk := .txType) (by simp [operandMnemonics]) t
  | txSeq q => exact assembleLine_operandMnemonic (m := "TX.SEQ".toList) (mk := .txSeq) (by simp [operandMnemonics]) q
  | txLen n => exact assembleLine_operandMnemonic (m := "TX.LEN".toList) (mk := .txLen) (by simp [operandMnemonics]) n
  | txData b => exact assembleLine_operandMnemonic (m := "TX.DATA".toList) (mk := .txData) (by simp [operandMnemonics]) b

end Sys2Proof.Machine
end

section
/-! SUPPORT. The pieces of an encoded frame at their offsets (R80). -/

namespace Sys2Proof.Machine

variable (p : Params) (t q : Byte) (pl : List Byte)

/-- Offsets 2 to 5+n are the header and the payload, what the checksum is taken over (R83). -/
theorem encodeFrame_checksum_range :
    ((encodeFrame p t q pl).drop 2).take (4 + pl.length) =
      (txHeader p t q (BitVec.ofNat 8 pl.length)).bytes ++ pl := by
  rw [encodeFrame_eq]
  simp [Header.bytes, Nat.add_comm 4]

/-- From offset 6 on there are the payload and the checksum. -/
theorem encodeFrame_drop_header :
    (encodeFrame p t q pl).drop 6 = pl ++ checksumBytes (frameCrc (txHeader p t q (BitVec.ofNat 8 pl.length)) pl) := by
  rw [encodeFrame_eq]
  simp [Header.bytes]

/-- The two checksum bytes follow the payload. -/
theorem encodeFrame_checksum_byte (k : Nat) :
    (encodeFrame p t q pl)[6 + pl.length + k]? =
      (checksumBytes (frameCrc (txHeader p t q (BitVec.ofNat 8 pl.length)) pl))[k]? := by
  rw [Nat.add_assoc, ← List.getElem?_drop, encodeFrame_drop_header, List.getElem?_append_right (by omega),
    Nat.add_sub_cancel_left]

/-- Settles O27: the six bytes before the payload are written out in `encodeFrame`, and the checksum stands after the
payload and is taken over offsets 2 to 5+n. -/
theorem encodedFrameHasTheWireLayout : Obligations.EncodedFrameHasTheWireLayout := by
  intro p t q pl _ f n c
  have hc : c = frameCrc (txHeader p t q (BitVec.ofNat 8 pl.length)) pl :=
    congrArg crc16 (encodeFrame_checksum_range p t q pl)
  have hlo := encodeFrame_checksum_byte p t q pl 0
  have hhi := encodeFrame_checksum_byte p t q pl 1
  rw [← hc] at hlo hhi
  refine ⟨encodeFrame_length p t q pl, rfl, rfl, rfl, rfl, rfl, rfl, ?_, ?_, ?_⟩
  · rw [encodeFrame_drop_header, List.take_left]
  · rw [← lo8_eq_setWidth]
    exact hlo
  · rw [← hi8_eq_shift, show 7 + n = 6 + n + 1 by omega]
    exact hhi

end Sys2Proof.Machine
end

section
/-! SUPPORT. The CRC step as a function (R110, R113, R114): a turn in the serial form, what the step does to a register
that holds one byte, and that it is exclusive-or linear and injective in each argument. -/

namespace Sys2Proof.Machine

/-! ### The loop and the serial form (R110) -/

/-- `crcStep` with the byte at bits 15..8 written as a concatenation. -/
theorem crcStep_eq (c : Halfword) (b : Byte) : crcStep c b = crcBits 8 (c ^^^ (b ++ 0#8)) := by
  rw [crcStep, zext16_shift_eq_append]

theorem crcBits_eq_iterate (n : Nat) (c : Halfword) : crcBits n c = crcBit^[n] c := by
  induction n generalizing c with
  | zero => rfl
  | succ n ih => rw [Function.iterate_succ_apply, ← ih]; rfl

theorem crcBits_succ (n : Nat) (c : Halfword) : crcBits (n + 1) c = crcBit (crcBits n c) := crcBits_add n 1 c

/-- One turn of the serial form: the message bit `x` meets the register at bit 15 (R110). -/
def crcSerialTurn (c : Halfword) (x : Bool) : Halfword :=
  if c.getLsbD 15 ≠ x then (c <<< 1) ^^^ crcPoly else c <<< 1

/-- A message folded into the register beforehand hands its top bit to the turn, and its rest moves up. -/
theorem crcBit_xor_eq_serialTurn (c m : Halfword) :
    crcBit (c ^^^ m) = crcSerialTurn c (m.getLsbD 15) ^^^ (m <<< 1) := by
  simp only [crcBit, crcSerialTurn, BitVec.getLsbD_xor, BitVec.shiftLeft_xor_distrib]
  cases c.getLsbD 15 <;> cases m.getLsbD 15 <;> simp <;> ac_rfl

theorem shiftLeft_getLsbD_top (m : Halfword) (n : Nat) (hn : n < 16) : (m <<< n).getLsbD 15 = m.getLsbD (15 - n) := by
  rw [BitVec.getLsbD_shiftLeft, decide_eq_false (show ¬ 15 < n by omega)]
  rfl

/-- `n` turns take the top `n` bits of the message one by one, bit 15 first. -/
theorem crcBits_xor_eq_serial (c m : Halfword) (n : Nat) (hn : n ≤ 16) :
    crcBits n (c ^^^ m) =
      (List.range n).foldl (fun c k => crcSerialTurn c (m.getLsbD (15 - k))) c ^^^ (m <<< n) := by
  induction n with
  | zero => simp [crcBits]
  | succ n ih =>
    rw [crcBits_succ, ih (by omega), crcBit_xor_eq_serialTurn, shiftLeft_getLsbD_top m n (by omega), List.range_succ,
      List.foldl_append, BitVec.shiftLeft_add]
    rfl

/-- Settles O22: the loop is `crcBits`, and of the message `b ++ 0#8` its eight turns take the bits of `b`. -/
theorem crcStepIsTheMsbFirstLoop : Obligations.CrcStepIsTheMsbFirstLoop := by
  intro c b
  refine ⟨(crcStep_eq c b).trans (crcBits_eq_iterate 8 _), ?_⟩
  have hrest : (b ++ 0#8 : Halfword) <<< 8 = 0#16 := by
    rw [← zext16_shift_eq_append, ← BitVec.shiftLeft_add]
    exact BitVec.shiftLeft_eq_zero (by decide)
  rw [crcStep_eq, crcBits_xor_eq_serial c _ 8 (by decide), hrest, BitVec.xor_zero]
  simp [List.range_succ, append_getLsbD, crcSerialTurn, crcPoly]

/-! ### A register with a clear high byte -/

/-- While no set bit reaches bit 15, the turns only shift. -/
theorem crcBits_eq_shift (c : Halfword) (n : Nat) (h : ∀ k < n, c.getLsbD (15 - k) = false) (hn : n ≤ 16) :
    crcBits n c = c <<< n := by
  induction n with
  | zero => simp [crcBits]
  | succ n ih =>
    have htop : (c <<< n).getLsbD 15 = false := by
      rw [shiftLeft_getLsbD_top c n (by omega), h n (by omega)]
    rw [crcBits_succ, ih (fun k hk => h k (by omega)) (by omega), crcBit, htop, BitVec.shiftLeft_add]
    rfl

/-- A byte that agrees with the register's high byte cancels it, and the low byte moves up. -/
theorem crcStep_high (hi lo : Byte) : crcStep (hi ++ lo) hi = lo ++ 0#8 := by
  have hclear : ∀ k < 8, (0#8 ++ lo : Halfword).getLsbD (15 - k) = false := by
    intro k hk
    simp [append_getLsbD, show ¬ 15 - k < 8 by omega]
  rw [crcStep_eq, BitVec.xor_append, BitVec.xor_self, BitVec.xor_zero, crcBits_eq_shift _ 8 hclear (by decide),
    ← zext16_eq_append, zext16_shift_eq_append]

/-! ### The laws of R114 -/

theorem crcStep_xor (c₁ c₂ : Halfword) (b₁ b₂ : Byte) :
    crcStep (c₁ ^^^ c₂) (b₁ ^^^ b₂) = crcStep c₁ b₁ ^^^ crcStep c₂ b₂ := by
  have hbytes : ((b₁ ^^^ b₂) ++ 0#8 : Halfword) = (b₁ ++ 0#8) ^^^ (b₂ ++ 0#8) := by
    rw [BitVec.xor_append, BitVec.xor_self]
  rw [crcStep_eq, crcStep_eq, crcStep_eq, hbytes, ← crcBits_xor]
  congr 1
  ac_rfl

theorem crcStep_injective_crc (b : Byte) (c₁ c₂ : Halfword) (h : crcStep c₁ b = crcStep c₂ b) : c₁ = c₂ := by
  rw [crcStep_eq, crcStep_eq] at h
  exact (BitVec.xor_left_inj _).mp (crcBits_injective 8 _ _ h)

theorem crcStep_injective_byte (c : Halfword) (b₁ b₂ : Byte) (h : crcStep c b₁ = crcStep c b₂) : b₁ = b₂ := by
  rw [crcStep_eq, crcStep_eq] at h
  have hb : (b₁ ++ 0#8 : Halfword) = b₂ ++ 0#8 := (BitVec.xor_right_inj _).mp (crcBits_injective 8 _ _ h)
  rw [← hi8_append b₁ 0#8, hb, hi8_append]

/-- Two register values stay apart under one sequence of bytes. -/
theorem foldl_crcStep_injective (ys : List Byte) (c₁ c₂ : Halfword) (h : ys.foldl crcStep c₁ = ys.foldl crcStep c₂) :
    c₁ = c₂ := by
  induction ys generalizing c₁ c₂ with
  | nil => exact h
  | cons y ys ih => exact crcStep_injective_crc y c₁ c₂ (ih _ _ h)

theorem crc16_append (xs ys : List Byte) : crc16 (xs ++ ys) = ys.foldl crcStep (crc16 xs) := List.foldl_append

theorem crcStep_zero_zero : crcStep 0#16 0#8 = 0#16 := crcStep_high 0#8 0#8

/-- R114 law (g): a changed byte moves the register, and the bytes after it keep the two values apart. -/
theorem crc16_changed_byte (xs : List Byte) (b₁ b₂ : Byte) (ys : List Byte) (h : b₁ ≠ b₂) :
    crc16 (xs ++ [b₁] ++ ys) ≠ crc16 (xs ++ [b₂] ++ ys) := by
  intro heq
  rw [crc16_append (xs ++ [b₁]), crc16_append (xs ++ [b₂]), crc16_append_singleton, crc16_append_singleton] at heq
  exact h (crcStep_injective_byte _ _ _ (foldl_crcStep_injective ys _ _ heq))

/-- Settles O24, law by law; the zeros of law (f) are injectivity against the zero at (0, 0). -/
theorem crcFunctionLaws : Obligations.CrcFunctionLaws :=
  ⟨rfl, crc16_append_singleton, crc16_append, crcStep_zero_zero, crcStep_xor,
    fun b h => crcStep_injective_byte 0#16 b 0#8 (h.trans crcStep_zero_zero.symm),
    fun d h => crcStep_injective_crc 0#8 d 0#16 (h.trans crcStep_zero_zero.symm),
    crcStep_injective_byte, crcStep_injective_crc, crc16_changed_byte⟩

/-! ### The residue and the zero byte -/

/-- A register's own two bytes, high byte first, take it to zero. -/
theorem crcStep_own_bytes (c : Halfword) : crcStep (crcStep c (hi8 c)) (lo8 c) = 0#16 := by
  calc crcStep (crcStep c (hi8 c)) (lo8 c)
      = crcStep (crcStep (hi8 c ++ lo8 c) (hi8 c)) (lo8 c) := by rw [hi8_append_lo8]
    _ = 0#8 ++ 0#8 := by rw [crcStep_high, crcStep_high]
    _ = 0#16 := by decide

/-- Settles O25: the two bytes appended are the register's own. -/
theorem crcResidueIsZero : Obligations.CrcResidueIsZero := by
  intro xs
  rw [← hi8_eq_shift, ← lo8_eq_setWidth, crc16_append]
  exact crcStep_own_bytes (crc16 xs)

/-- A zero byte sends the high byte through the loop and moves the low byte up. -/
theorem crcStep_zero_append (hi lo : Byte) : crcStep (hi ++ lo) 0#8 = crcStep (hi ++ 0#8) 0#8 ^^^ (lo ++ 0#8) := by
  rw [← crcStep_high 0#8 lo, ← crcStep_xor, BitVec.xor_append]
  simp

/-- When a zero byte leaves the register as it is, what the loop makes of the high byte is known. -/
theorem crcStep_high_of_fixed {hi lo : Byte} (h : crcStep (hi ++ lo) 0#8 = hi ++ lo) :
    crcStep (hi ++ 0#8) 0#8 = (hi ^^^ lo) ++ lo := by
  calc crcStep (hi ++ 0#8) 0#8
      = crcStep (hi ++ 0#8) 0#8 ^^^ (lo ++ 0#8) ^^^ (lo ++ 0#8) := by
        rw [BitVec.xor_assoc, BitVec.xor_self, BitVec.xor_zero]
    _ = (hi ++ lo) ^^^ (lo ++ 0#8) := by rw [← crcStep_zero_append, h]
    _ = (hi ^^^ lo) ++ lo := by rw [BitVec.xor_append, BitVec.xor_zero]

/-- Of the 256 high bytes only 0x00 and 0xF0 are the exclusive-or of the two bytes that the loop makes of them. -/
theorem high_byte_of_fixed : ∀ hi : Byte,
    hi ^^^ lo8 (crcStep (hi ++ 0#8) 0#8) = hi8 (crcStep (hi ++ 0#8) 0#8) → hi = 0x00#8 ∨ hi = 0xF0#8 := by
  decide

/-- Settles O23: the loop on the high byte fixes the low byte, and two high bytes are left. -/
theorem zeroByteFixesTwoCrcValues : Obligations.ZeroByteFixesTwoCrcValues := by
  intro c
  constructor
  · intro h
    rw [← hi8_append_lo8 c] at h ⊢
    generalize hi8 c = hi, lo8 c = lo at h ⊢
    have hloop := crcStep_high_of_fixed h
    have hlo : lo8 (crcStep (hi ++ 0#8) 0#8) = lo := by rw [hloop, lo8_append]
    have hhi : hi = 0x00#8 ∨ hi = 0xF0#8 := high_byte_of_fixed hi (by rw [hlo, hloop, hi8_append])
    obtain rfl | rfl := hhi
    · subst hlo; exact .inl (by decide)
    · subst hlo; exact .inr (by decide)
  · rintro (rfl | rfl) <;> decide

end Sys2Proof.Machine
end

section
/-! SUPPORT. The CRC register (R111, R112): which events write it, what it holds along a run (R116), and that the framers
and it are independent (R117). -/

namespace Sys2Proof.Machine

/-! ### The register along a run (R116) -/

theorem after_crc_of_restart {e : Event} (h : restartsCrc e = true) (s : State) : (after e s).crc = crcInitial := by
  cases ha : e.action with
  | idle => simp [restartsCrc, ha] at h
  | reset => simp only [after, ha]; rfl
  | run i =>
    cases i with
    | crcInit _ => simp only [after, ha]; rfl
    | _ => simp [restartsCrc, ha] at h

/-- An event that does not restart the register folds its CRC.BYTE operand into it, if it has one. -/
theorem after_crc_of_no_restart {e : Event} (h : restartsCrc e = false) (s : State) :
    (after e s).crc = (crcOperand e).toList.foldl crcStep s.crc := by
  cases ha : e.action with
  | idle => simp only [after, crcOperand, ha]; rfl
  | reset => simp [restartsCrc, ha] at h
  | run i =>
    simp only [after, crcOperand, ha, State.recordOut_crc]
    cases i with
    | crcInit _ => simp [restartsCrc, ha] at h
    | crcByte b => rfl
    | _ => exact effect_crc_of_not_crcOp s _ rfl

theorem run_crc_of_no_restart (es : List Event) (s : State) (h : ∀ e ∈ es, restartsCrc e = false) :
    (es.foldl (fun u e => after e u) s).crc = (es.filterMap crcOperand).foldl crcStep s.crc := by
  induction es generalizing s with
  | nil => rfl
  | cons e es ih =>
    rw [List.foldl_cons, ih _ fun e' he' => h e' (List.mem_cons_of_mem e he'),
      after_crc_of_no_restart (h e List.mem_cons_self)]
    cases ho : crcOperand e with
    | none => rw [List.filterMap_cons_none ho]; rfl
    | some b => rw [List.filterMap_cons_some ho]; rfl

/-- R116 for one range, started by CRC.INIT or reset. -/
theorem runEvents_crc_range (s : State) (start : Event) (es : List Event) (hstart : restartsCrc start = true)
    (h : ∀ e ∈ es, restartsCrc e = false) :
    ∃ t, runEvents (start :: es) s = .next t ∧ t.crc = crc16 (es.filterMap crcOperand) := by
  refine ⟨_, runEvents_eq _ s, ?_⟩
  rw [List.foldl_cons, run_crc_of_no_restart es _ h, after_crc_of_restart hstart]
  rfl

theorem host_crcByte_action (b : Byte) : (host (.crcByte b)).action = .run (.crcByte b) :=
  congrArg Action.run (decodeWord_append 0x02#8 b)

theorem crcOperand_host_crcByte (b : Byte) : crcOperand (host (.crcByte b)) = some b := by
  simp only [crcOperand, host_crcByte_action]

theorem restartsCrc_host_crcByte (b : Byte) : restartsCrc (host (.crcByte b)) = false := by
  simp only [restartsCrc, host_crcByte_action]

/-- Settles O26: the run keeps the register at the fold of the operands, and CRC.BLOCK is a CRC.INIT followed by
CRC.BYTE operations only. -/
theorem crcRegisterHoldsTheRangeChecksum : Obligations.CrcRegisterHoldsTheRangeChecksum := by
  refine ⟨runEvents_crc_range, fun s bs => ?_⟩
  have hbytes : ∀ e ∈ (bs.map Instr.crcByte).map host, restartsCrc e = false := by
    simp [restartsCrc_host_crcByte]
  have hoperands : ((bs.map Instr.crcByte).map host).filterMap crcOperand = bs := by
    simp [List.filterMap_map, Function.comp_def, crcOperand_host_crcByte]
  obtain ⟨t, hrun, hcrc⟩ := runEvents_crc_range s (host (.crcInit 0#8)) _ (by decide) hbytes
  exact ⟨t, hrun, by rw [hcrc, hoperands]⟩

/-! ### The two operations (R111, R112) -/

/-- Settles O4. -/
theorem crcInitLoadsTheInitialValue : Obligations.CrcInitLoadsTheInitialValue :=
  fun _ imm => ⟨decodeWord_append 0x01#8 imm, rfl⟩

/-- Settles O5: the four values of R112 are evaluated. -/
theorem crcByteFoldsOneByte : Obligations.CrcByteFoldsOneByte := by
  refine ⟨fun s b => ⟨decodeWord_append 0x02#8 b, rfl⟩, ?_⟩
  decide

/-! ### The register and the framers (R117) -/

theorem startFrame_setCrc (n : Byte) (s : State) (c : Halfword) :
    (s.setCrc c).startFrame n = (s.startFrame n).setCrc c := by
  by_cases hn : n = 0#8
  · subst hn; rfl
  · rw [startFrame_open _ n hn, startFrame_open _ n hn]; rfl

theorem sendPayload_setCrc (rem : Byte) (x : Halfword) (b : Byte) (s : State) (c : Halfword) :
    (s.setCrc c).sendPayload rem x b = (s.sendPayload rem x b).setCrc c := by
  by_cases hr : rem = 1#8
  · subst hr; rfl
  · rw [sendPayload_more _ rem x b hr, sendPayload_more _ rem x b hr]; rfl

/-- An operation other than the CRC operations and RD does the same whatever CRC is. -/
theorem effect_setCrc {i : Instr} (hi : isCrcOp i = false) (hrd : ∀ k, i ≠ .rd k) (s : State) (c : Halfword) :
    effect i (s.setCrc c) = (effect i s).setCrc c := by
  cases i with
  | crcInit _ => cases hi
  | crcByte _ => cases hi
  | rd k => exact absurd rfl (hrd k)
  | txLen n =>
    by_cases h : s.txs = .idle
    · rw [effect_txLen_idle n h, effect_txLen_idle n (s := s.setCrc c) h, startFrame_setCrc]
    · rw [effect_txLen_open n h, effect_txLen_open n (s := s.setCrc c) h]; rfl
  | txData b =>
    cases h : s.txs with
    | idle => rw [effect_txData_idle b h, effect_txData_idle b (s := s.setCrc c) h]; rfl
    | pay rem x => rw [effect_txData_open b h, effect_txData_open b (s := s.setCrc c) h, sendPayload_setCrc]
  | _ => rfl

/-- A CRC operation writes CRC and the output record, from CRC alone. -/
theorem effect_crcOp {i : Instr} (hi : isCrcOp i = true) :
    ∃ f : Halfword → Halfword, ∀ s, effect i s = (s.setCrc (f s.crc)).emit Output.none := by
  cases i with
  | crcInit _ => exact ⟨fun _ => crcInitial, fun _ => rfl⟩
  | crcByte b => exact ⟨fun c => crcStep c b, fun _ => rfl⟩
  | _ => cases hi

/-- Settles O40, by the frames of the operations on both sides. -/
theorem crcRegisterIsIndependent : Obligations.CrcRegisterIsIndependent := by
  constructor
  · intro i s t c hop ht
    have hcrc : isCrcOp i = false := by obtain ⟨b, rfl | rfl | rfl⟩ := hop <;> rfl
    have hrd : ∀ k, i ≠ .rd k := by obtain ⟨b, rfl | rfl | rfl⟩ := hop <;> simp
    rw [exec_eq_effect] at ht ⊢
    cases ht
    exact ⟨effect_crc_of_not_crcOp s i hcrc, congrArg Host.Outcome.next (effect_setCrc hcrc hrd s c)⟩
  · intro i s t u hi ht
    obtain ⟨f, hf⟩ := effect_crcOp hi
    rw [exec_eq_effect, hf] at ht ⊢
    cases ht
    exact ⟨rfl, rfl, rfl, rfl, rfl, rfl, rfl⟩

end Sys2Proof.Machine
end

section
/-! SUPPORT. The four operations of the transmit framer as whole next states (R131 to R134), and what the latches decide
(R136). -/

namespace Sys2Proof.Machine

/-! ### The operations (R131 to R134) -/

/-- A checksum as R133 and R134 write its two bytes. -/
theorem checksumBytes_eq (c : Halfword) : checksumBytes c = [c.setWidth 8, (c >>> 8).setWidth 8] := by
  rw [checksumBytes, lo8_eq_setWidth, hi8_eq_shift]

/-- Settles O7. -/
theorem txTypeLatchesTheMessageType : Obligations.TxTypeLatchesTheMessageType :=
  fun _ t => ⟨decodeWord_append 0x20#8 t, rfl⟩

/-- Settles O8. -/
theorem txSeqLatchesTheSequenceNumber : Obligations.TxSeqLatchesTheSequenceNumber :=
  fun _ q => ⟨decodeWord_append 0x21#8 q, rfl⟩

/-- Settles O9, by the equation of TX.LEN for each branch of R133. -/
theorem txLenStartsAFrame : Obligations.TxLenStartsAFrame := by
  intro s n c start
  refine ⟨decodeWord_append 0x22#8 n, fun hx hn => ?_, fun hx hn => ?_, fun rem c' hx => ?_⟩
  · subst hn
    rw [exec_eq_effect, effect_txLen_idle _ hx, startFrame_empty, ← checksumBytes_eq]
    rfl
  · rw [exec_eq_effect, effect_txLen_idle n hx, startFrame_open s n hn]
    rfl
  · rw [exec_eq_effect, effect_txLen_open n (by simp [hx])]
    rfl

/-- Settles O10, by the equation of TX.DATA for each branch of R134. -/
theorem txDataSendsOnePayloadByte : Obligations.TxDataSendsOnePayloadByte := by
  intro s b
  refine ⟨decodeWord_append 0x23#8 b, fun hx => ?_, fun rem c hx hr => ?_, fun rem c hx hr => ?_⟩
  · rw [exec_eq_effect, effect_txData_idle b hx]
    rfl
  · subst hr
    rw [exec_eq_effect, effect_txData_open b hx, sendPayload_last, checksumBytes_eq]
    rfl
  · rw [exec_eq_effect, effect_txData_open b hx, sendPayload_more s rem c b hr]
    rfl

/-! ### The latches (R136) -/

/-- The state with the latches at `x` and `y`. -/
def State.setLatches (x y : Byte) (s : State) : State := (s.setTxType x).setTxSeq y

/-- No register but TX_HDR shows the latches (R32). -/
theorem readReg_setLatches (s : State) (x y : Byte) {k : Reg} (hk : k ≠ .txHdr) :
    (s.setLatches x y).readReg k = s.readReg k := by
  cases k with
  | txHdr => exact absurd rfl hk
  | _ => rfl

theorem sendPayload_setLatches (s : State) (x y rem : Byte) (c : Halfword) (b : Byte) :
    (s.setLatches x y).sendPayload rem c b = (s.sendPayload rem c b).setLatches x y := by
  by_cases hr : rem = 1#8
  · subst hr; rfl
  · rw [sendPayload_more _ rem c b hr, sendPayload_more _ rem c b hr]; rfl

/-- An operation that is none of TX.TYPE, TX.SEQ, TX.LEN and RD of TX_HDR does the same whatever the latches are. -/
theorem effect_setLatches {i : Instr} (htype : ∀ t, i ≠ .txType t) (hseq : ∀ q, i ≠ .txSeq q)
    (hlen : ∀ n, i ≠ .txLen n) (hrd : i ≠ .rd 0x06#8) (s : State) (x y : Byte) :
    effect i (s.setLatches x y) = (effect i s).setLatches x y := by
  cases i with
  | txType t => exact absurd rfl (htype t)
  | txSeq q => exact absurd rfl (hseq q)
  | txLen n => exact absurd rfl (hlen n)
  | txData b =>
    cases hx : s.txs with
    | idle => rw [effect_txData_idle b hx, effect_txData_idle b (s := s.setLatches x y) hx]; rfl
    | pay rem c =>
      rw [effect_txData_open b hx, effect_txData_open b (s := s.setLatches x y) hx, sendPayload_setLatches]
  | rd k =>
    have hk : Reg.ofIndex k ≠ .txHdr := fun h => hrd (congrArg Instr.rd ((ofIndex_txHdr k).mp h))
    simp only [effect, readReg_setLatches s x y hk]
    rfl
  | _ => rfl

/-- Settles O41: TX.TYPE and TX.SEQ overwrite one latch each, and every other operation allowed keeps both. -/
theorem latchesAreReadOnlyByTxLen : Obligations.LatchesAreReadOnlyByTxLen := by
  intro i s t x y hlen hrd ht
  rw [exec_eq_effect] at ht
  cases ht
  simp only [exec_eq_effect]
  by_cases htype : ∃ v, i = .txType v
  · obtain ⟨v, rfl⟩ := htype
    exact ⟨v, y, rfl, .inr rfl, .inl rfl⟩
  by_cases hseq : ∃ v, i = .txSeq v
  · obtain ⟨v, rfl⟩ := hseq
    exact ⟨x, v, rfl, .inl rfl, .inr rfl⟩
  · exact ⟨x, y, congrArg Host.Outcome.next
      (effect_setLatches (not_exists.mp htype) (not_exists.mp hseq) hlen hrd s x y), .inl rfl, .inl rfl⟩

end Sys2Proof.Machine
end

section
/-! SUPPORT. Runs of received bytes: what marker, header, payload and checksum of a frame do to the receive framer,
piece by piece (R151 to R160). -/

namespace Sys2Proof.Machine

section Reception

variable (s : State)

/-! ### Bytes from the line -/

/-- The state after the bytes `bs` from the line. -/
def State.receive (bs : List Byte) (s : State) : State := bs.foldl (fun u b => after (.rx b) u) s

theorem runEvents_rx (bs : List Byte) : runEvents (bs.map Event.rx) s = .next (s.receive bs) := by
  rw [runEvents_eq, List.foldl_map]
  rfl

theorem receive_nil : s.receive [] = s := rfl

theorem receive_cons (b : Byte) (bs : List Byte) : s.receive (b :: bs) = (after (.rx b) s).receive bs := rfl

theorem receive_append (xs ys : List Byte) : s.receive (xs ++ ys) = (s.receive xs).receive ys := List.foldl_append

/-- The state with RXS at `r` after a byte that brought nothing out. -/
def State.rxAt (r : RxState) (s : State) : State := { s with rxs := r, out := Output.none }

theorem acceptRx_quiet (r : RxState) : (s.acceptRx { rxs := r }).recordOut = s.rxAt r := by
  simp [State.recordOut, State.acceptRx, State.setRxs, State.countHdrErr, State.countCrcErr, State.emit, State.rxAt,
    Output.none, Streams.record]

/-- What a received byte does is the result of `rxStep`, and its frame joins the run's (R150, R222). -/
theorem after_rx (b : Byte) : after (.rx b) s = (s.acceptRx (rxStep s.params s.rxs b)).recordOut := rfl

/-- The next byte after a quiet one overwrites what that one wrote. -/
theorem after_rx_rxAt (r : RxState) (b : Byte) :
    after (.rx b) (s.rxAt r) = (s.acceptRx (rxStep s.params r b)).recordOut := rfl

/-! ### The pieces of a frame -/

variable {s}

/-- From Scan, armed or not, the marker and three header bytes are taken (R151, R152). -/
theorem receive_marker {a : Bool} (hscan : s.rxs = .scan a) (v t q : Byte) :
    s.receive [0xAA#8, 0x55#8, v, t, q] = s.rxAt (.hdr [v, t, q]) := by
  have hmarker1 : after (.rx 0xAA#8) s = s.rxAt (.scan true) := by
    rw [after_rx, hscan, rxStep_scan _ _ _ (by simp)]
    exact acceptRx_quiet s _
  rw [receive_cons, hmarker1, receive_cons, after_rx_rxAt, rxStep_marker, acceptRx_quiet]
  simp [receive_cons, receive_nil, after_rx_rxAt, rxStep_hdr_short, acceptRx_quiet]

/-- From Scan, marker and header lead to what the complete header is checked to (R153 to R155). -/
theorem receive_preamble {a : Bool} (hscan : s.rxs = .scan a) (h : Header) :
    s.receive (txPreamble h) = (s.acceptRx (rxHeaderDone s.params h)).recordOut := by
  have hsplit : txPreamble h = [0xAA#8, 0x55#8, h.version, h.msgType, h.seq] ++ [h.length] := rfl
  rw [hsplit, receive_append, receive_marker hscan, receive_cons, receive_nil, after_rx_rxAt, rxStep_hdr_done]

/-- The payload bytes still to come, at least one, complete the payload (R156). -/
theorem receive_payload (h : Header) (d : List Byte) {pl : List Byte} (hne : pl ≠ [])
    (hlen : d.length + pl.length = h.length.toNat) :
    (s.rxAt (.pay h d)).receive pl = s.rxAt (.chk h (d ++ pl) none) := by
  induction pl generalizing d with
  | nil => exact absurd rfl hne
  | cons b pl ih =>
    rw [List.length_cons] at hlen
    rw [receive_cons, after_rx_rxAt]
    by_cases hpl : pl = []
    · subst hpl
      rw [rxStep_pay_last _ b h d hlen, acceptRx_quiet, receive_nil]
    · have hpos : pl.length ≠ 0 := fun h0 => hpl (List.length_eq_zero_iff.mp h0)
      rw [rxStep_pay_more _ b h d (by omega), acceptRx_quiet, ih _ hpl (by simp; omega), List.append_assoc]
      rfl

/-- From Scan, a good header and its payload lead to Chk (R155, R156). -/
theorem receive_header_payload {a : Bool} (hscan : s.rxs = .scan a) {h : Header} (hgood : headerBad s.params h = false)
    {pl : List Byte} (hlen : pl.length = h.length.toNat) :
    s.receive (txPreamble h ++ pl) = s.rxAt (.chk h pl none) := by
  rw [receive_append, receive_preamble hscan]
  by_cases hn : h.length = 0#8
  · obtain rfl : pl = [] := List.length_eq_zero_iff.mp (hlen.trans (hn ▸ rfl))
    rw [rxHeaderDone_empty _ h hgood hn, acceptRx_quiet, receive_nil]
  · have hne : pl ≠ [] := fun h0 => toNat_ne_of_ne hn (hlen.symm.trans (h0 ▸ rfl))
    rw [rxHeaderDone_payload _ h hgood hn, acceptRx_quiet, receive_payload h [] hne (by simpa using hlen),
      List.nil_append]

/-- From Scan, a frame with a good header is verified at its second checksum byte, whatever its payload and checksum
(R157 to R160). -/
theorem receive_frame {a : Bool} (hscan : s.rxs = .scan a) {h : Header} (hgood : headerBad s.params h = false)
    {pl : List Byte} (hlen : pl.length = h.length.toNat) (lo hi : Byte) :
    s.receive (txPreamble h ++ pl ++ [lo, hi]) = (s.acceptRx (rxVerify h pl lo hi)).recordOut := by
  rw [receive_append, receive_header_payload hscan hgood hlen, receive_cons, receive_cons, receive_nil, after_rx_rxAt,
    rxStep_chk_first, acceptRx_quiet, after_rx_rxAt]
  rfl

/-- A checksum as the transmitter splits it is the one the receiver expects (R158, R160). -/
theorem rxVerify_checksumBytes (h : Header) (pl : List Byte) :
    rxVerify h pl (lo8 (frameCrc h pl)) (hi8 (frameCrc h pl)) =
      { rxs := .scan false, frame := some (h.frame pl (frameCrc h pl)) } := by
  rw [rxVerify, pairLE_lo8_hi8, if_pos rfl]

/-! ### An encoded frame -/

/-- A payload of at most 255 bytes fits the length field (R82). -/
theorem toNat_ofNat_length {pl : List Byte} (h : pl.length ≤ 255) : (BitVec.ofNat 8 pl.length).toNat = pl.length := by
  rw [BitVec.toNat_ofNat, Nat.mod_eq_of_lt (by omega)]

/-- The header a transmitter writes is bad for a receiver with the same parameters exactly when the payload exceeds
the maximum (R153, R154). -/
theorem headerBad_txHeader {p : Params} (t q n : Byte) :
    headerBad p (txHeader p t q n) = decide (p.maxPayload.toNat < n.toNat) := by
  rw [headerBad, txHeader, bne_self_eq_false, Bool.false_or]

end Reception

/-- Settles O31: the frame's header is good, and its checksum is the one the receiver computes. -/
theorem receiverRecoversTheEncodedFrame : Obligations.ReceiverRecoversTheEncodedFrame := by
  intro s a t q pl hscan hmax f
  have hn := toNat_ofNat_length (hmax.trans (Nat.le_of_lt_succ s.params.maxPayload.isLt))
  have hgood : headerBad s.params (txHeader s.params t q (BitVec.ofNat 8 pl.length)) = false := by
    rw [headerBad_txHeader, hn]
    exact decide_eq_false (Nat.not_lt.mpr hmax)
  have hrun : s.receive (encodeFrame s.params t q pl) =
      (s.acceptRx { rxs := .scan false, frame := some f }).recordOut :=
    (receive_frame hscan hgood hn.symm _ _).trans (by rw [rxVerify_checksumBytes]; rfl)
  refine ⟨_, runEvents_rx s _, ?_⟩
  rw [hrun]
  exact ⟨rfl, rfl, rfl, rfl, rfl⟩

/-! ### The maximum (R138) -/

/-- The state with MAX_PAYLOAD at `m`. -/
def State.setMaxPayload (m : Byte) (s : State) : State := { s with params := { s.params with maxPayload := m } }

theorem startFrame_setMaxPayload (n m : Byte) (s : State) :
    (s.setMaxPayload m).startFrame n = (s.startFrame n).setMaxPayload m := by
  by_cases hn : n = 0#8
  · subst hn; rfl
  · rw [startFrame_open _ n hn, startFrame_open _ n hn]; rfl

theorem effect_txLen_setMaxPayload (n m : Byte) (s : State) :
    effect (.txLen n) (s.setMaxPayload m) = (effect (.txLen n) s).setMaxPayload m := by
  by_cases h : s.txs = .idle
  · rw [effect_txLen_idle n h, effect_txLen_idle n (s := s.setMaxPayload m) h, startFrame_setMaxPayload]
  · rw [effect_txLen_open n h, effect_txLen_open n (s := s.setMaxPayload m) h]; rfl

/-- The first six bytes of an encoded frame are marker and header. -/
theorem encodeFrame_take_six (p : Params) (t q : Byte) (pl : List Byte) :
    (encodeFrame p t q pl).take 6 = txPreamble (txHeader p t q (BitVec.ofNat 8 pl.length)) := rfl

/-- Settles O30: TX.LEN does not read the maximum, and the receiver finds the header bad. -/
theorem transmitIgnoresTheMaximum : Obligations.TransmitIgnoresTheMaximum := by
  constructor
  · intro s n m t ht
    rw [exec_eq_effect] at ht ⊢
    cases ht
    exact congrArg Host.Outcome.next (effect_txLen_setMaxPayload n m s)
  · intro s a t q pl hscan hmax hlen
    have hbad : headerBad s.params (txHeader s.params t q (BitVec.ofNat 8 pl.length)) = true := by
      rw [headerBad_txHeader, toNat_ofNat_length hlen]
      exact decide_eq_true hmax
    refine ⟨_, runEvents_rx s _, ?_⟩
    rw [encodeFrame_take_six, receive_preamble hscan, rxHeaderDone_bad _ _ hbad]
    exact ⟨rfl, rfl, rfl, List.append_nil _⟩

end Sys2Proof.Machine
end

section
/-! SUPPORT. Runs of the transmit framer: an open frame takes the TX.DATA of a run one by one, whatever else comes
between (R134, R135, R139). -/

namespace Sys2Proof.Machine

section TransmitRuns

variable {s : State} {e : Event} {es : List Event} {rem : Byte} {c : Halfword}

/-! ### The events of the transmit framer -/

theorem host_instr {i : Instr} (h : i.wf = true) : (host i).instr = some i := congrArg some (decodeInvertsEncode i h)

theorem dataOperand_eq_some_iff (e : Event) (b : Byte) : dataOperand e = some b ↔ e.instr = some (.txData b) := by
  cases ha : e.action with
  | run i => cases i <;> simp [dataOperand, Event.instr, ha]
  | _ => simp [dataOperand, Event.instr, ha]

theorem opensOrResets_eq_false_iff (e : Event) :
    opensOrResets e = false ↔ e ≠ .reset ∧ ∀ n, e.instr ≠ some (.txLen n) := by
  cases e with
  | reset => simp [opensOrResets, Event.action]
  | rx b => simp [opensOrResets, Event.action]
  | cmd w => cases hi : decodeWord w <;> simp [opensOrResets, Event.action, hi]

/-- An event other than reset and TX.DATA performs an operation other than TX.DATA. -/
theorem exists_instr_ne_txData (he : e ≠ .reset) (hd : dataOperand e = none) :
    ∃ i, e.instr = some i ∧ ∀ b, i ≠ .txData b := by
  obtain ⟨i, hi⟩ := Event.exists_instr he
  refine ⟨i, hi, fun b hb => ?_⟩
  rw [(dataOperand_eq_some_iff e b).mpr (hi.trans (congrArg some hb))] at hd
  cases hd

/-! ### One event -/

/-- An event that is no TX.LEN, TX.DATA or reset leaves the transmit framer's state, error bit and bytes as they are. -/
theorem after_of_no_transmit (he : opensOrResets e = false) (hd : dataOperand e = none) (s : State) :
    (after e s).txs = s.txs ∧ (after e s).txErr = s.txErr ∧ (after e s).run.tx = s.run.tx := by
  obtain ⟨hreset, hlen⟩ := (opensOrResets_eq_false_iff e).mp he
  obtain ⟨i, hi, hdata⟩ := exists_instr_ne_txData hreset hd
  have hlen' : ∀ n, i ≠ .txLen n := fun n hn => hlen n (hi.trans (congrArg some hn))
  obtain ⟨htxs, herr, hout⟩ := effect_of_not_txLen_txData s i hlen' hdata
  rw [after_of_instr hi]
  exact ⟨htxs, herr, by simp [hout]⟩

/-- While a frame is open, only TX.DATA and reset move it: TX.LEN does not restart it (R133, R139). -/
theorem after_open_of_no_data (hx : s.txs = .pay rem c) (he : e ≠ .reset) (hd : dataOperand e = none) :
    (after e s).txs = .pay rem c ∧ (after e s).run.tx = s.run.tx := by
  obtain ⟨i, hi, hdata⟩ := exists_instr_ne_txData he hd
  by_cases hlen : ∃ n, i = .txLen n
  · obtain ⟨n, rfl⟩ := hlen
    rw [after_of_instr hi, effect_txLen_open n (by simp [hx])]
    exact ⟨hx, List.append_nil _⟩
  · obtain ⟨htxs, -, hout⟩ := effect_of_not_txLen_txData s i (not_exists.mp hlen) hdata
    rw [after_of_instr hi]
    exact ⟨htxs.trans hx, by simp [hout]⟩

/-- While a frame is open, a TX.DATA sends its byte (R134). -/
theorem after_open_of_data (hx : s.txs = .pay rem c) {b : Byte} (hd : dataOperand e = some b) :
    after e s = (s.sendPayload rem c b).recordOut := by
  rw [after_of_instr ((dataOperand_eq_some_iff e b).mp hd), effect_txData_open b hx]

/-- A TX.DATA that is not the last adds its byte and its CRC step, and one byte fewer is to come. -/
theorem after_open_of_data_more (hx : s.txs = .pay rem c) {b : Byte} (hd : dataOperand e = some b) (hr : rem ≠ 1#8) :
    (after e s).txs = .pay (rem - 1#8) (crcStep c b) ∧ (after e s).txErr = s.txErr ∧
      (after e s).run.tx = s.run.tx ++ [b] := by
  rw [after_open_of_data hx hd, sendPayload_more s rem c b hr]
  exact ⟨rfl, rfl, rfl⟩

/-! ### A run while the frame stays open (R139) -/

/-- With fewer TX.DATA than the frame still needs, it stays open with just those bytes sent. -/
theorem run_open_frame (hx : s.txs = .pay rem c) (he : ∀ e ∈ es, e ≠ .reset) {sent : List Byte}
    (hsent : es.filterMap dataOperand = sent) (hlt : sent.length < rem.toNat) :
    (es.foldl (fun u e => after e u) s).txs =
        .pay (BitVec.ofNat 8 (rem.toNat - sent.length)) (sent.foldl crcStep c) ∧
      (es.foldl (fun u e => after e u) s).run.tx = s.run.tx ++ sent := by
  induction es generalizing s rem c sent with
  | nil => subst hsent; simp [hx]
  | cons e es ih =>
    obtain ⟨hreset, he⟩ := List.forall_mem_cons.mp he
    rw [List.foldl_cons]
    cases hd : dataOperand e with
    | none =>
      obtain ⟨htxs, htx⟩ := after_open_of_no_data hx hreset hd
      rw [List.filterMap_cons_none hd] at hsent
      rw [← htx]
      exact ih htxs he hsent hlt
    | some b =>
      rw [List.filterMap_cons_some hd] at hsent
      subst hsent
      rw [List.length_cons] at hlt
      have hne : rem ≠ 1#8 := by rintro rfl; simp at hlt
      have hrem := rem_sub_one rem (by omega)
      obtain ⟨hx', -, htx'⟩ := after_open_of_data_more hx hd hne
      obtain ⟨htxs, htx⟩ := ih hx' he rfl (by omega)
      rw [htxs, htx, hrem, htx', List.length_cons, Nat.sub_sub, Nat.add_comm 1, List.append_assoc]
      exact ⟨rfl, rfl⟩

/-- The TX.DATA with the last byte the frame needs closes it. -/
theorem run_closes_frame (hx : s.txs = .pay rem c) (he : ∀ e ∈ es, e ≠ .reset) (hlast : dataOperand e ≠ none)
    (hlen : ((es ++ [e]).filterMap dataOperand).length = rem.toNat) :
    ((es ++ [e]).foldl (fun u e => after e u) s).txs = .idle := by
  obtain ⟨b, hd⟩ := Option.ne_none_iff_exists'.mp hlast
  have hsent : (es.filterMap dataOperand).length + 1 = rem.toNat := by
    rw [← hlen, List.filterMap_append, List.length_append, List.filterMap_cons_some hd]
    rfl
  obtain ⟨htxs, -⟩ := run_open_frame hx he rfl (by omega)
  rw [show rem.toNat - (es.filterMap dataOperand).length = 1 by omega] at htxs
  rw [List.foldl_append, List.foldl_cons, List.foldl_nil, after_open_of_data htxs hd, sendPayload_last]
  rfl

/-! ### A run that completes the frame (R135) -/

/-- Without TX.LEN, TX.DATA and reset the transmit framer rests. -/
theorem run_of_no_transmit (he : ∀ e ∈ es, opensOrResets e = false) (hd : es.filterMap dataOperand = [])
    (s : State) :
    (es.foldl (fun u e => after e u) s).txs = s.txs ∧ (es.foldl (fun u e => after e u) s).txErr = s.txErr ∧
      (es.foldl (fun u e => after e u) s).run.tx = s.run.tx := by
  induction es generalizing s with
  | nil => exact ⟨rfl, rfl, rfl⟩
  | cons e es ih =>
    obtain ⟨hno, he⟩ := List.forall_mem_cons.mp he
    obtain ⟨hnone, hd⟩ := List.forall_mem_cons.mp (List.filterMap_eq_nil_iff.mp hd)
    obtain ⟨htxs, herr, htx⟩ := after_of_no_transmit hno hnone s
    rw [List.foldl_cons, ← htxs, ← herr, ← htx]
    exact ih he (List.filterMap_eq_nil_iff.mpr hd) (after e s)

/-- Exactly the TX.DATA an open frame needs, and no TX.LEN, send it to its end, checksum included, without an error. -/
theorem run_completes_frame (hx : s.txs = .pay rem c) (he : ∀ e ∈ es, opensOrResets e = false) {sent : List Byte}
    (hsent : es.filterMap dataOperand = sent) (hlen : sent.length = rem.toNat) (hne : sent ≠ []) :
    (es.foldl (fun u e => after e u) s).txs = .idle ∧ (es.foldl (fun u e => after e u) s).txErr = s.txErr ∧
      (es.foldl (fun u e => after e u) s).run.tx = s.run.tx ++ (sent ++ checksumBytes (sent.foldl crcStep c)) := by
  induction es generalizing s rem c sent with
  | nil => exact absurd hsent.symm hne
  | cons e es ih =>
    obtain ⟨hno, he⟩ := List.forall_mem_cons.mp he
    rw [List.foldl_cons]
    cases hd : dataOperand e with
    | none =>
      obtain ⟨htxs, herr, htx⟩ := after_of_no_transmit hno hd s
      rw [List.filterMap_cons_none hd] at hsent
      rw [← herr, ← htx]
      exact ih (htxs.trans hx) he hsent hlen hne
    | some b =>
      rw [List.filterMap_cons_some hd] at hsent
      subst hsent
      rw [List.length_cons] at hlen
      by_cases hr : rem = 1#8
      · subst hr
        rw [after_open_of_data hx hd]
        have hrest : es.filterMap dataOperand = [] := List.length_eq_zero_iff.mp (Nat.succ.inj hlen)
        obtain ⟨htxs, herr, htx⟩ := run_of_no_transmit he hrest (s.sendPayload 1#8 c b).recordOut
        rw [htxs, herr, htx, hrest, sendPayload_last]
        exact ⟨rfl, rfl, rfl⟩
      · have hmore : es.filterMap dataOperand ≠ [] := fun h0 => by
          rw [h0] at hlen
          exact toNat_ne_of_ne hr hlen.symm
        have hrem := rem_sub_one rem (by omega)
        obtain ⟨hx', herr', htx'⟩ := after_open_of_data_more hx hd hr
        obtain ⟨htxs, herr, htx⟩ := ih hx' he rfl (by omega) hmore
        rw [htxs, herr, htx, herr', htx', List.append_assoc]
        exact ⟨rfl, rfl, rfl⟩

/-- The checksum that starts with the header becomes the frame's with the payload (R113). -/
theorem foldl_crcStep_frameCrc (h : Header) (pl : List Byte) :
    pl.foldl crcStep (frameCrc h []) = frameCrc h pl := by
  rw [frameCrc, frameCrc, List.append_nil, crc16_append]

/-- A TX.LEN from TxIdle with the TX.DATA it asks for sends the frame of the latches' type and sequence number. -/
theorem run_transmits_frame (hx : s.txs = .idle) {pl : List Byte} (hlen : pl.length ≤ 255)
    (he : ∀ e ∈ es, opensOrResets e = false) (hpl : es.filterMap dataOperand = pl) {u : State}
    (hu : (host (.txLen (BitVec.ofNat 8 pl.length)) :: es).foldl (fun u e => after e u) s = u) :
    u.txs = .idle ∧ u.txErr = s.txErr ∧ u.run.tx = s.run.tx ++ encodeFrame s.params s.txType s.txSeq pl := by
  rw [List.foldl_cons, after_of_instr (host_instr rfl), effect_txLen_idle _ hx] at hu
  subst hu
  by_cases hnil : pl = []
  · subst hnil
    obtain ⟨htxs, herr, htx⟩ := run_of_no_transmit he hpl (s.startFrame 0#8).recordOut
    exact ⟨htxs.trans hx, herr, htx⟩
  · have hn := toNat_ofNat_length hlen
    have hn0 : BitVec.ofNat 8 pl.length ≠ 0#8 := fun h0 =>
      hnil (List.length_eq_zero_iff.mp (hn.symm.trans (congrArg BitVec.toNat h0)))
    rw [startFrame_open s _ hn0]
    obtain ⟨htxs, herr, htx⟩ := run_completes_frame (s := ((s.setTxs _).emit _).recordOut) rfl he hpl hn.symm hnil
    refine ⟨htxs, herr, htx.trans ?_⟩
    simp [foldl_crcStep_frameCrc, encodeFrame]

theorem after_latches (t q : Byte) (s : State) :
    after (host (.txSeq q)) (after (host (.txType t)) s) = (s.setLatches t q).emit Output.none := by
  rw [after_of_instr (host_instr rfl), after_of_instr (host_instr rfl)]
  simp [State.recordOut, effect, State.setLatches, State.setTxType, State.setTxSeq, State.emit]

/-! ### ILLCMD along a run (R30) -/

/-- A run of operations without a reserved one keeps ILLCMD. -/
theorem run_illCmd (h : ∀ e ∈ es, ∃ i, e.instr = some i ∧ ∀ o b, i ≠ .reserved o b) (s : State) :
    (es.foldl (fun u e => after e u) s).illCmd = s.illCmd := by
  induction es generalizing s with
  | nil => rfl
  | cons e es ih =>
    obtain ⟨⟨i, hi, hres⟩, h⟩ := List.forall_mem_cons.mp h
    have hkeep : (effect i s).illCmd = s.illCmd := by
      rw [Bool.eq_iff_iff, effect_illCmd]
      simp [hres]
    rw [List.foldl_cons, ih h, after_of_instr hi]
    exact hkeep

end TransmitRuns

/-- Settles O47: the count of TX.DATA decides between `run_open_frame` and `run_closes_frame`; reset goes to TxIdle. -/
theorem openFrameEndsOnlyByItsData : Obligations.OpenFrameEndsOnlyByItsData := by
  constructor
  · intro s rem c es hx he sent
    refine ⟨_, runEvents_eq es s, run_open_frame hx he rfl, ?_⟩
    rintro hlen ⟨e, hlast, hd⟩
    obtain ⟨init, rfl⟩ := List.getLast?_eq_some_iff.mp hlast
    exact run_closes_frame hx (fun e' he' => he e' (List.mem_append_left _ he')) hd hlen
  · exact fun s rem c _ => ⟨_, runEvents_eq _ s, rfl, rfl⟩

/-- Settles O29: TX.TYPE and TX.SEQ load the latches, and the rest is `run_transmits_frame`. -/
theorem transmitSequenceEmitsEncode : Obligations.TransmitSequenceEmitsEncode := by
  intro s t q pl rest hx hlen hno hpl body c
  refine ⟨_, runEvents_eq _ s, ?_⟩
  obtain ⟨htxs, herr, htx⟩ := run_transmits_frame (s := (s.setLatches t q).emit Output.none) hx hlen hno hpl
    (by rw [← after_latches, ← List.foldl_cons, ← List.foldl_cons])
  refine ⟨?_, htxs, herr, fun hres => run_illCmd ?_ s⟩
  · rw [htx, ← checksumBytes_eq]
    rfl
  · simp only [List.forall_mem_cons]
    refine ⟨⟨_, host_instr rfl, by simp⟩, ⟨_, host_instr rfl, by simp⟩, ⟨_, host_instr rfl, by simp⟩,
      fun e he => ?_⟩
    obtain ⟨hreset, -⟩ := (opensOrResets_eq_false_iff e).mp (hno e he)
    obtain ⟨i, hi⟩ := Event.exists_instr hreset
    exact ⟨i, hi, fun o b hb => hres e he o b (hi.trans (congrArg some hb))⟩

end Sys2Proof.Machine
end

section
/-! SUPPORT. The receive framer's family (43_rx_framer.md): RX.BYTE row by row (R166), what a discard leaves alone (R164),
how many bytes a frame takes (R167), and reception after a frame with a changed payload byte (R162). -/

namespace Sys2Proof.Machine

/-! ### One received byte (R150, R166) -/

/-- RX.BYTE writes the result of `rxStep` and nothing else (R150). -/
theorem exec_rxByte {s : State} {b : Byte} {r : RxState} {x : RxResult} (hr : s.rxs = r)
    (hx : rxStep s.params r b = x) :
    exec (.rxByte b) s = .next { s with
      rxs := x.rxs
      hdrErr := if x.hdrErr = true then s.hdrErr + 1#16 else s.hdrErr
      crcErr := if x.crcErr = true then s.crcErr + 1#16 else s.crcErr
      out := { frame := x.frame } } := by
  subst hr hx
  rfl

/-- A byte that is no marker byte in its place disarms the scan (R151). -/
theorem rxStep_scan_disarm (p : Params) {b : Byte} {a : Bool} (h : ¬(a = true ∧ b = 0x55#8)) (hb : b ≠ 0xAA#8) :
    rxStep p (.scan a) b = { rxs := .scan false } := by
  rw [rxStep_scan p b a h, beq_false_of_ne hb]

/-- The good headers (R153, R154). -/
theorem headerBad_eq_false_iff (p : Params) (h : Header) :
    headerBad p h = false ↔ h.version = p.protoVersion ∧ h.length ≤ p.maxPayload := by
  rw [← Bool.not_eq_true, headerBad_iff, not_or, not_not, BitVec.not_lt]

/-- Settles O6: each row of R166 is one of the equations of `rxStep`. -/
theorem rxByteFollowsTheTransitionTable : Obligations.RxByteFollowsTheTransitionTable := by
  intro s b goes
  refine ⟨decodeWord_append _ _, ?marker, ?arm, ?unarmed, ?disarm, ?headerByte, ?badHeader, ?emptyPayload, ?goodHeader,
    ?payloadByte, ?lastPayloadByte, ?firstChecksumByte, ?checksumMatches, ?checksumDiffers, exec_rxByte rfl rfl⟩
  case marker => rintro h rfl; exact exec_rxByte h (rxStep_marker _)
  case arm => rintro a h rfl; exact exec_rxByte h (rxStep_scan _ _ a (by simp))
  case unarmed => rintro h rfl; exact exec_rxByte h (rxStep_scan_disarm _ (by simp) (by decide))
  case disarm => exact fun a h h55 hAA => exec_rxByte h (rxStep_scan_disarm _ (fun hm => h55 hm.2) hAA)
  case headerByte => exact fun h hr hl => exec_rxByte hr (rxStep_hdr_short _ b h hl)
  case badHeader =>
    exact fun v t q hr hbad => exec_rxByte hr (rxHeaderDone_bad _ ⟨v, t, q, b⟩ ((headerBad_iff _ _).mpr hbad))
  case emptyPayload =>
    rintro v t q hr rfl rfl
    have hgood := (headerBad_eq_false_iff s.params ⟨_, t, q, 0#8⟩).mpr ⟨rfl, BitVec.not_lt.mp BitVec.not_lt_zero⟩
    exact exec_rxByte hr (rxHeaderDone_empty _ _ hgood rfl)
  case goodHeader =>
    intro v t q hr hv hpos hmax
    have hgood := (headerBad_eq_false_iff s.params ⟨v, t, q, b⟩).mpr ⟨hv, hmax⟩
    exact exec_rxByte hr (rxHeaderDone_payload _ _ hgood (BitVec.ne_of_lt hpos).symm)
  case payloadByte => exact fun h d hr hl => exec_rxByte hr (rxStep_pay_more _ b h d hl)
  case lastPayloadByte => exact fun h d hr hl => exec_rxByte hr (rxStep_pay_last _ b h d hl)
  case firstChecksumByte => exact fun h d hr => exec_rxByte hr (rxStep_chk_first _ b h d)
  case checksumMatches =>
    intro h d lo hr hc
    rw [← pairLE_eq_append] at hc ⊢
    exact exec_rxByte hr (rxStep_chk_match _ b h d lo hc)
  case checksumDiffers =>
    intro h d lo hr hc
    rw [← pairLE_eq_append] at hc
    exact exec_rxByte hr (rxStep_chk_differ _ b h d lo hc)

/-- Settles O45, over the four things a received byte can do (`rxStep_cases`). -/
theorem discardsOnlyCountAndRescan : Obligations.DiscardsOnlyCountAndRescan := by
  intro s t b ht
  rw [exec_rxByte rfl rfl] at ht
  obtain rfl := Host.Outcome.next.inj ht
  obtain ⟨r', hx⟩ | ⟨-, -, -, -, -, -, hx⟩ | ⟨-, -, -, -, -, hx⟩ | ⟨h, d, lo, -, -, hx⟩ :=
    rxStep_cases s.params b s.rxs
  · rw [hx]
    exact ⟨fun _ => rfl, .inl rfl, by simp⟩
  · rw [hx]
    exact ⟨fun _ => rfl, .inr rfl, fun _ => rfl⟩
  · rw [hx]
    exact ⟨fun _ => rfl, .inl rfl, fun _ => rfl⟩
  · rw [hx]
    exact ⟨nofun, .inl rfl, fun _ => rfl⟩

/-! ### How many bytes a frame takes (R167) -/

section ByteCount

variable {s : State} {a : Bool}

theorem after_marker1 (hscan : s.rxs = .scan a) : after (.rx 0xAA#8) s = s.rxAt (.scan true) := by
  rw [after_rx, hscan, rxStep_scan _ _ _ (by simp)]
  exact acceptRx_quiet s _

/-- From Scan, any number of 0xAA before a 0xAA changes nothing: each leaves the framer armed (R151). -/
theorem receive_lead (hscan : s.rxs = .scan a) (j : Nat) {bs : List Byte} (hbs : bs.head? = some 0xAA#8) :
    s.receive (List.replicate j 0xAA#8 ++ bs) = s.receive bs := by
  induction j generalizing s a with
  | zero => rfl
  | succ j ih =>
    obtain ⟨tl, rfl⟩ := List.head?_eq_some_iff.mp hbs
    rw [List.replicate_succ, List.cons_append, receive_cons, after_marker1 hscan, ih rfl, receive_cons, receive_cons,
      after_marker1 hscan, after_marker1 (s := s.rxAt _) rfl]
    rfl

/-- The same for the first bytes of a stream, at least one of them after the leading 0xAA. -/
theorem receive_take_lead (hscan : s.rxs = .scan a) (j : Nat) {bs : List Byte} (hbs : bs.head? = some 0xAA#8) {k : Nat}
    (hk : 0 < k) : s.receive ((List.replicate j 0xAA#8 ++ bs).take (j + k)) = s.receive (bs.take k) := by
  have htake := List.take_length_add_append (l₁ := List.replicate j 0xAA#8) (l₂ := bs) k
  rw [List.length_replicate] at htake
  rw [htake]
  exact receive_lead hscan j (by rw [List.head?_take, if_neg hk.ne', hbs])

/-- From Scan, the marker and up to three header bytes are collected (R151, R152). -/
theorem receive_header_part (hscan : s.rxs = .scan a) (hs : List Byte) (hlen : hs.length ≤ 3) :
    s.receive (0xAA#8 :: 0x55#8 :: hs) = s.rxAt (.hdr hs) := by
  induction hs using List.reverseRecOn with
  | nil =>
    rw [receive_cons, after_marker1 hscan, receive_cons, after_rx_rxAt, rxStep_marker, acceptRx_quiet, receive_nil]
  | append_singleton hs b ih =>
    rw [List.length_append, List.length_singleton] at hlen
    rw [← List.cons_append, ← List.cons_append, receive_append, ih (by omega), receive_cons, receive_nil, after_rx_rxAt,
      rxStep_hdr_short _ _ _ (by omega), acceptRx_quiet]

/-- From Scan, a good header and a part of its payload lead to Pay (R155, R156). -/
theorem receive_payload_part (hscan : s.rxs = .scan a) {h : Header} (hgood : headerBad s.params h = false)
    (d : List Byte) (hlen : d.length < h.length.toNat) : s.receive (txPreamble h ++ d) = s.rxAt (.pay h d) := by
  induction d using List.reverseRecOn with
  | nil =>
    have hn : h.length ≠ 0#8 := fun h0 => absurd (h0 ▸ hlen) (Nat.not_lt_zero _)
    rw [List.append_nil, receive_preamble hscan, rxHeaderDone_payload _ h hgood hn, acceptRx_quiet]
  | append_singleton d b ih =>
    rw [List.length_append, List.length_singleton] at hlen
    rw [← List.append_assoc, receive_append, ih (by omega), receive_cons, receive_nil, after_rx_rxAt,
      rxStep_pay_more _ _ _ _ (by omega), acceptRx_quiet]

/-- After `bs` the framer is inside a frame; nothing has come out and nothing has been counted. -/
def InsideFrame (s : State) (bs : List Byte) : Prop :=
  ∃ r, (∀ a, r ≠ .scan a) ∧ s.receive bs = s.rxAt r

theorem InsideFrame.exists_quiet_run {bs : List Byte} (h : InsideFrame s bs) :
    ∃ u, runEvents (bs.map Event.rx) s = .next u ∧
      (∀ a, u.rxs ≠ .scan a) ∧ u.hdrErr = s.hdrErr ∧ u.crcErr = s.crcErr ∧ u.run.frames = s.run.frames := by
  obtain ⟨r, hr, hu⟩ := h
  exact ⟨_, runEvents_rx s bs, hu ▸ ⟨hr, rfl, rfl, rfl⟩⟩

/-- Between the marker and the fourth header byte the framer is in Hdr. -/
theorem insideFrame_header (hscan : s.rxs = .scan a) (h : Header) {k : Nat} (hk : 2 ≤ k) (hk6 : k < 6) :
    InsideFrame s ((txPreamble h).take k) := by
  obtain ⟨m, rfl⟩ := Nat.exists_eq_add_of_le' hk
  exact ⟨.hdr _, nofun, receive_header_part hscan (h.bytes.take m) (by rw [List.length_take]; omega)⟩

/-- Between the marker and the second checksum byte of a frame with a good header the framer is in Hdr, Pay or Chk. -/
theorem insideFrame_frame (hscan : s.rxs = .scan a) {h : Header} (hgood : headerBad s.params h = false)
    {pl : List Byte} (hlen : pl.length = h.length.toNat) (x y : Byte) {k : Nat} (hk : 2 ≤ k)
    (hk8 : k < 8 + h.length.toNat) : InsideFrame s ((txPreamble h ++ pl ++ [x, y]).take k) := by
  have hpre : (txPreamble h).length = 6 := rfl
  have hbody : (txPreamble h ++ pl).length = 6 + h.length.toNat := by rw [List.length_append, hpre, hlen]
  obtain hk6 | hpay | rfl | rfl : k < 6 ∨ (6 ≤ k ∧ k < 6 + h.length.toNat) ∨ k = 6 + h.length.toNat + 0 ∨
      k = 6 + h.length.toNat + 1 := by omega
  · rw [List.append_assoc, List.take_append_of_le_length (by omega)]
    exact insideFrame_header hscan h hk hk6
  · obtain ⟨m, rfl⟩ := Nat.exists_eq_add_of_le hpay.1
    rw [List.take_append_of_le_length (by omega), ← hpre, List.take_length_add_append]
    exact ⟨.pay h _, nofun, receive_payload_part hscan hgood (pl.take m) (by rw [List.length_take]; omega)⟩
  · rw [← hbody, List.take_length_add_append, List.take_zero, List.append_nil]
    exact ⟨.chk h pl none, nofun, receive_header_payload hscan hgood hlen⟩
  · rw [← hbody, List.take_length_add_append]
    refine ⟨.chk h pl (some x), nofun, ?_⟩
    rw [receive_append, receive_header_payload hscan hgood hlen]
    exact acceptRx_quiet s _

end ByteCount

/-- Settles O51: the leading 0xAA drop out (`receive_lead`); before the last byte the framer is inside the frame, and the
last byte is the header's check or the checksum's. -/
theorem framesTakeTheirByteCount : Obligations.FramesTakeTheirByteCount := by
  intro s a j v t q n pl x y hscan lead head bad quietAt
  have hbad : headerBad s.params ⟨v, t, q, n⟩ = true ↔ bad := headerBad_iff _ _
  have hquiet (bs : List Byte) (k : Nat) (hbs : bs.head? = some 0xAA#8) (hk : 2 ≤ k)
      (hin : InsideFrame s (bs.take k)) : quietAt (lead ++ bs) k :=
    InsideFrame.exists_quiet_run (by rwa [InsideFrame, receive_take_lead hscan j hbs (by omega)])
  constructor
  · intro hb
    refine ⟨fun k hk hk6 => hquiet head k rfl hk (insideFrame_header hscan ⟨v, t, q, n⟩ hk hk6), _, runEvents_rx s _, ?_⟩
    have hrun : s.receive (lead ++ head) = (s.acceptRx { rxs := .scan false, hdrErr := true }).recordOut := by
      rw [receive_lead hscan j rfl, ← rxHeaderDone_bad _ _ (hbad.mpr hb)]
      exact receive_preamble hscan ⟨v, t, q, n⟩
    rw [hrun]
    exact ⟨rfl, rfl, rfl, List.append_nil _⟩
  · intro hb hlen
    have hgood : headerBad s.params ⟨v, t, q, n⟩ = false := Bool.eq_false_iff.mpr (mt hbad.mp hb)
    have hrun : s.receive (lead ++ (head ++ pl ++ [x, y])) = (s.acceptRx (rxVerify ⟨v, t, q, n⟩ pl x y)).recordOut := by
      rw [receive_lead hscan j rfl]
      exact receive_frame hscan hgood hlen x y
    rw [show lead ++ head ++ pl ++ [x, y] = lead ++ (head ++ pl ++ [x, y]) by simp only [List.append_assoc]]
    refine ⟨fun k hk hk8 => hquiet _ k rfl hk (insideFrame_frame hscan hgood hlen x y hk hk8), _, runEvents_rx s _, ?_⟩
    rw [hrun, rxVerify]
    split
    · exact ⟨rfl, rfl, .inr ⟨rfl, _, rfl⟩⟩
    · exact ⟨rfl, rfl, .inl ⟨rfl, List.append_nil _⟩⟩

/-! ### A changed payload byte (R162) -/

section ChangedByte

variable {p : Params} {pl : List Byte} {k : Nat} {x : Byte}

/-- A payload within the maximum fits the length field (R82). -/
theorem toNat_ofNat_length_of_le_max (h : pl.length ≤ p.maxPayload.toNat) :
    (BitVec.ofNat 8 pl.length).toNat = pl.length :=
  toNat_ofNat_length (h.trans (Nat.le_of_lt_succ p.maxPayload.isLt))

/-- A header with the transmitter's version and a payload within the maximum is good. -/
theorem headerBad_txHeader_length (t q : Byte) (h : pl.length ≤ p.maxPayload.toNat) :
    headerBad p (txHeader p t q (BitVec.ofNat 8 pl.length)) = false := by
  rw [headerBad_txHeader, toNat_ofNat_length_of_le_max h]
  exact decide_eq_false (Nat.not_lt.mpr h)

/-- The payload stands from offset 6 on (R80). -/
theorem encodeFrame_set_payload (t q : Byte) (hk : k < pl.length) :
    (encodeFrame p t q pl).set (6 + k) x =
      let h := txHeader p t q (BitVec.ofNat 8 pl.length)
      txPreamble h ++ pl.set k x ++ checksumBytes (frameCrc h pl) := by
  simp only [encodeFrame]
  rw [List.set_append_left _ _ (by rw [List.length_append, txPreamble_length]; omega),
    List.set_append_right _ _ (by rw [txPreamble_length]; omega), txPreamble_length, Nat.add_sub_cancel_left]

/-- One changed payload byte changes the checksum (R114 law (g)). -/
theorem frameCrc_set_ne (h : Header) (hk : k < pl.length) (hx : pl[k]? ≠ some x) :
    frameCrc h pl ≠ frameCrc h (pl.set k x) := by
  have hne : pl[k] ≠ x := fun h0 => hx (h0 ▸ List.getElem?_eq_getElem hk)
  have hset : h.bytes ++ pl.set k x = h.bytes ++ pl.take k ++ [x] ++ pl.drop (k + 1) := by
    rw [List.set_eq_take_append_cons_drop, if_pos hk]
    simp
  have hpl : h.bytes ++ pl = h.bytes ++ pl.take k ++ [pl[k]] ++ pl.drop (k + 1) := by simp
  rw [frameCrc, frameCrc, hset, hpl]
  exact crc16_changed_byte _ _ _ _ hne

/-- A received checksum that is not the frame's discards the frame (R159). -/
theorem rxVerify_differ (h : Header) (d : List Byte) {c : Halfword} (hc : c ≠ frameCrc h d) :
    rxVerify h d (lo8 c) (hi8 c) = { rxs := .scan false, crcErr := true } := by
  rw [rxVerify, pairLE_lo8_hi8, if_neg hc]

end ChangedByte

/-- Settles O32: the changed byte makes the checksum differ, so the first frame is discarded at its last byte, from where
the second is received as any valid frame is (O31). -/
theorem resyncAfterAFlippedPayloadByte : Obligations.ResyncAfterAFlippedPayloadByte := by
  intro s a t₁ q₁ t₂ q₂ pl₁ pl₂ k x hscan hmax₁ hmax₂ hk hx bad good
  let h := txHeader s.params t₁ q₁ (BitVec.ofNat 8 pl₁.length)
  have hlen : (pl₁.set k x).length = h.length.toNat :=
    List.length_set.trans (toNat_ofNat_length_of_le_max hmax₁).symm
  have hbad : s.receive bad = (s.acceptRx { rxs := .scan false, crcErr := true }).recordOut := by
    rw [show bad = _ from encodeFrame_set_payload t₁ q₁ hk]
    exact (receive_frame hscan (headerBad_txHeader_length t₁ q₁ hmax₁) hlen _ _).trans
      (by rw [rxVerify_differ _ _ (frameCrc_set_ne h hk hx)])
  obtain ⟨u, hrun, -, hframes, hrxs, hhdr, hcrc⟩ := receiverRecoversTheEncodedFrame
    (s.acceptRx { rxs := .scan false, crcErr := true }).recordOut false t₂ q₂ pl₂ rfl hmax₂
  refine ⟨u, ?_, hcrc, hhdr, hrxs, ?_⟩
  · rw [runEvents_rx, receive_append, hbad, ← hrun, runEvents_rx]
    rfl
  · rw [hframes]
    exact congrArg (· ++ _) (List.append_nil _)

end Sys2Proof.Machine
end

section
/-! SUPPORT. NOP, RD and the reserved words (44_control.md rules R180, R181, R183): STATUS as its fields stand in R33, and
each operation as a whole next state. -/

namespace Sys2Proof.Machine

/-! ### STATUS field by field (R33) -/

/-- RXST takes two bits. -/
theorem code_setWidth (r : RxState) : (r.code.setWidth 2).setWidth 16 = r.code := by
  cases r <;> rfl

theorem sawMarker1_eq_decide (r : RxState) : r.sawMarker1 = decide (r = .scan true) := by
  cases r with
  | scan a => cases a <;> rfl
  | _ => rfl

theorem busy_eq_decide (x : TxState) : x.busy = decide (x ≠ .idle) := by
  cases x <;> rfl

/-- Two low bits and the flags at bits 2 to 5 do not overlap: their disjunction is their concatenation. -/
theorem or_flagAt_eq_append (c : BitVec 2) (aa busy ill err : Bool) :
    c.setWidth 16 ||| flagAt aa 2 ||| flagAt busy 3 ||| flagAt ill 4 ||| flagAt err 5 =
      0#10 ++ BitVec.ofBool err ++ BitVec.ofBool ill ++ BitVec.ofBool busy ++ BitVec.ofBool aa ++ c := by
  revert c aa busy ill err; decide

theorem status_eq_append (s : State) :
    s.status = 0#10 ++ BitVec.ofBool s.txErr ++ BitVec.ofBool s.illCmd ++ BitVec.ofBool (decide (s.txs ≠ .idle)) ++
      BitVec.ofBool (decide (s.rxs = .scan true)) ++ s.rxs.code.setWidth 2 := by
  rw [← sawMarker1_eq_decide, ← busy_eq_decide, ← or_flagAt_eq_append, code_setWidth, State.status]

/-! ### The operations (R180, R181, R183) -/

/-- Settles O3. -/
theorem nopHasNoEffect : Obligations.NopHasNoEffect :=
  fun _ imm => ⟨decodeWord_append 0x00#8 imm, rfl⟩

/-- Settles O11: a read returns the register its index names (`exec_rd_of_readReg`), so each clause is what that register
holds. -/
theorem rdReturnsTheRegister : Obligations.RdReturnsTheRegister := by
  intro s reads rxst rxaa txbusy
  have hrxst : s.rxs.code.setWidth 2 = rxst := by
    simp only [rxst]
    cases s.rxs <;> rfl
  refine ⟨decodeWord_append 0x30#8, exec_rd_of_readReg rfl, exec_rd_of_readReg ?status, exec_rd_of_readReg rfl,
    exec_rd_of_readReg rfl, fun hx => exec_rd_of_readReg (congrArg TxState.remaining hx),
    fun rem c hx => exec_rd_of_readReg ?remain, exec_rd_of_readReg (readReg_config s),
    exec_rd_of_readReg (readReg_txHdr s), fun i hi => exec_rd_of_readReg ?none⟩
  case status => exact hrxst ▸ status_eq_append s
  case remain => exact (congrArg TxState.remaining hx).trans (zext16_eq_append rem)
  case none => rw [ofIndex_reserved i hi, State.readReg]

/-- The four ranges of R93 as bounds on the opcode byte. -/
theorem reservedOpcode_iff (opc : Byte) : reservedOpcode opc = true ↔
    (0x03#8 ≤ opc ∧ opc ≤ 0x0F#8) ∨ (0x11#8 ≤ opc ∧ opc ≤ 0x1F#8) ∨ (0x24#8 ≤ opc ∧ opc ≤ 0x2F#8) ∨ 0x31#8 ≤ opc := by
  have := opc.isLt
  simp only [reservedOpcode, BitVec.le_def, BitVec.toNat_ofNat, Bool.or_eq_true, Bool.and_eq_true, decide_eq_true_eq,
    Nat.reducePow, Nat.reduceMod]
  omega

/-- Settles O12: an opcode in a range of R93 is none of the nine that R92 matches. -/
theorem reservedWordOnlySetsIllcmd : Obligations.ReservedWordOnlySetsIllcmd := by
  intro s opc imm hrange
  exact ⟨(decodeWord_append opc imm).trans (decodeFields_of_reserved ((reservedOpcode_iff opc).mpr hrange) imm), rfl⟩

end Sys2Proof.Machine
end

section
/-! SUPPORT. The error conditions' family (60_exceptions.md): each operation has one outcome (R194), and a block with
nothing to do keeps its state (R201, R219). -/

namespace Sys2Proof.Machine

/-! ### The outcomes of the transmit operations (R133, R134, R194) -/

/-- A transmit operation's outcome from `s`: TXERR and no byte, or bytes and TXERR as it was. -/
def TxOutcome (s t : State) : Prop := (t.out.tx = [] ∧ t.txErr = true) ∨ (t.out.tx ≠ [] ∧ t.txErr = s.txErr)

theorem txOutcome_txOutOfSequence (s : State) : TxOutcome s s.txOutOfSequence := .inl ⟨rfl, rfl⟩

theorem txOutcome_startFrame (s : State) (n : Byte) : TxOutcome s (s.startFrame n) := by
  refine .inr ⟨?_, by rw [startFrame_frame]⟩
  by_cases hn : n = 0#8
  · subst hn
    exact List.cons_ne_nil _ _
  · rw [startFrame_open s n hn]
    exact List.cons_ne_nil _ _

theorem txOutcome_sendPayload (s : State) (rem : Byte) (c : Halfword) (b : Byte) :
    TxOutcome s (s.sendPayload rem c b) := by
  refine .inr ⟨?_, by rw [sendPayload_frame]⟩
  by_cases hr : rem = 1#8
  · subst hr
    exact List.cons_ne_nil _ _
  · rw [sendPayload_more s rem c b hr]
    exact List.cons_ne_nil _ _

theorem txOutcome_txLen (s : State) (n : Byte) : TxOutcome s (effect (.txLen n) s) := by
  by_cases hx : s.txs = .idle
  · rw [effect_txLen_idle n hx]
    exact txOutcome_startFrame s n
  · rw [effect_txLen_open n hx]
    exact txOutcome_txOutOfSequence s

theorem txOutcome_txData (s : State) (b : Byte) : TxOutcome s (effect (.txData b) s) := by
  cases hx : s.txs with
  | idle =>
    rw [effect_txData_idle b hx]
    exact txOutcome_txOutOfSequence s
  | pay rem c =>
    rw [effect_txData_open b hx]
    exact txOutcome_sendPayload s rem c b

/-- Settles O44: a received byte does one of four things (`rxStep_cases`), and TX.LEN and TX.DATA have one outcome each
(`txOutcome_txLen`, `txOutcome_txData`). -/
theorem oneOutcomePerOperation : Obligations.OneOutcomePerOperation := by
  refine ⟨fun s t b ht => ?_, fun s t i hi ht => ?_⟩
  · rw [exec_rxByte rfl rfl] at ht
    obtain rfl := Host.Outcome.next.inj ht
    obtain ⟨_, hx⟩ | ⟨_, _, _, _, _, _, hx⟩ | ⟨_, _, _, _, _, hx⟩ | ⟨_, _, _, _, _, hx⟩ :=
      rxStep_cases s.params b s.rxs
    · rw [hx]
      exact .inl ⟨rfl, rfl⟩
    · rw [hx]
      exact .inr (.inl ⟨rfl, rfl, rfl⟩)
    · rw [hx]
      exact .inr (.inr ⟨rfl, rfl, rfl⟩)
    · rw [hx]
      exact .inl ⟨rfl, rfl⟩
  · rw [exec_eq_effect] at ht
    obtain rfl := Host.Outcome.next.inj ht
    obtain ⟨n, rfl | rfl⟩ := hi
    · exact txOutcome_txLen s n
    · exact txOutcome_txData s n

/-! ### Nothing pending (R201, R219) -/

/-- Settles O20. -/
theorem idleStepKeepsTheState : Obligations.IdleStepKeepsTheState := step_of_idle

end Sys2Proof.Machine
end

section
/-! SUPPORT. Reset and hazards (70_reset_and_hazards.md): the incremental receiver in step with `rxStep` (R221), how
soon the receive framer scans again (R218), the outputs of a run (R222), and the reset event (R210). -/

namespace Sys2Proof.Machine

/-! ### The incremental receiver (R221) -/

section Incremental

variable (p : Params) (b : Byte)

/-- What the incremental receiver is to give where `rxStep` gives `x`. -/
def RxResult.incremental (x : RxResult) : IncState × RxReport :=
  (withRunningCrc x.rxs, { frame := x.frame, hdrErr := x.hdrErr, crcErr := x.crcErr })

theorem incStep_scan (a : Bool) : incStep p (.scan a) b = (rxStep p (.scan a) b).incremental := by
  by_cases h : a = true ∧ b = 0x55#8
  · obtain ⟨rfl, rfl⟩ := h
    rfl
  · rw [rxStep_scan p b a h]
    exact congrArg (·, _) (if_neg h)

theorem incStep_hdr_short (h : List Byte) (hl : h.length < 3) :
    incStep p (.hdr h (crc16 h)) b = (rxStep p (.hdr h) b).incremental := by
  have hcollect : incStep p (.hdr h (crc16 h)) b = (.hdr (h ++ [b]) (crcStep (crc16 h) b), {}) := by
    match h, hl with
    | [], _ => rfl
    | [_], _ => rfl
    | [_, _], _ => rfl
  rw [hcollect, rxStep_hdr_short p b h hl, ← crc16_append_singleton]
  rfl

/-- The fourth header byte gets the same three answers; its step of the running CRC completes that of `Header.bytes`
(R153 to R155). -/
theorem incStep_hdr_done (v t q : Byte) :
    incStep p (.hdr [v, t, q] (crc16 [v, t, q])) b = (rxStep p (.hdr [v, t, q]) b).incremental := by
  rw [rxStep_hdr_done]
  by_cases hbad : v ≠ p.protoVersion ∨ p.maxPayload < b
  · rw [rxHeaderDone_bad p ⟨v, t, q, b⟩ ((headerBad_iff p _).mpr hbad)]
    exact if_pos hbad
  · have hgood : headerBad p ⟨v, t, q, b⟩ = false := Bool.eq_false_iff.mpr (mt (headerBad_iff p _).mp hbad)
    refine (if_neg hbad).trans ?_
    by_cases hn : b = 0#8
    · rw [rxHeaderDone_empty p _ hgood hn]
      exact if_pos hn
    · rw [rxHeaderDone_payload p _ hgood hn]
      exact if_neg hn

theorem incStep_pay (h : Header) (d : List Byte) :
    incStep p (.pay h d (crc16 (h.bytes ++ d))) b = (rxStep p (.pay h d) b).incremental := by
  have hcrc : crcStep (crc16 (h.bytes ++ d)) b = crc16 (h.bytes ++ (d ++ [b])) := by
    rw [← crc16_append_singleton, List.append_assoc]
  rw [incStep, hcrc]
  by_cases hl : d.length + 1 = h.length.toNat
  · rw [rxStep_pay_last p b h d hl]
    exact if_pos hl
  · rw [rxStep_pay_more p b h d hl]
    exact if_neg hl

/-- The incremental receiver compares with the CRC it holds, which is the frame's checksum (R158 to R160). -/
theorem incStep_chk_second (h : Header) (d : List Byte) (lo : Byte) :
    incStep p (.chk h d (crc16 (h.bytes ++ d)) (some lo)) b = (rxStep p (.chk h d (some lo)) b).incremental := by
  by_cases hc : pairLE lo b = frameCrc h d
  · rw [rxStep_chk_match p b h d lo hc, hc]
    exact if_pos (pairLE_eq_append lo b ▸ hc)
  · rw [rxStep_chk_differ p b h d lo hc]
    exact if_neg (pairLE_eq_append lo b ▸ hc)

/-- One byte through the incremental receiver, from the running CRC of a well-formed RXS, is one `rxStep`. -/
theorem incStep_withRunningCrc (r : RxState) (hr : rxWf p r = true) :
    incStep p (withRunningCrc r) b = (rxStep p r b).incremental := by
  match r with
  | .scan a => exact incStep_scan p b a
  | .hdr h =>
    obtain hs | ⟨v, t, q, rfl⟩ := hdr_short_or_three (of_decide_eq_true hr)
    · exact incStep_hdr_short p b h hs
    · exact incStep_hdr_done p b v t q
  | .pay h d => exact incStep_pay p b h d
  | .chk h d none => rfl
  | .chk h d (some lo) => exact incStep_chk_second p b h d lo

end Incremental

/-- Settles O53, by induction on the stream: one byte is `incStep_withRunningCrc`, and R25 holds again after it. -/
theorem incrementalChecksumGivesTheSameResults : Obligations.IncrementalChecksumGivesTheSameResults := by
  intro p r bs hr
  induction bs generalizing r with
  | nil => rfl
  | cons b bs ih =>
    rw [incRun, incStep_withRunningCrc p b r hr, RxResult.incremental]
    dsimp only
    rw [ih _ (rxStep_wf p b r hr)]
    rfl

/-! ### How soon the receive framer scans again (R218) -/

section Rescan

/-- A bound on the received bytes until RXS is Scan: what is missing of the header, then of the payload (MAX_PAYLOAD
while the length is not known), then of the checksum. -/
def bytesToScan (p : Params) : RxState → Nat
  | .scan _ => 0
  | .hdr h => (4 - h.length) + p.maxPayload.toNat + 2
  | .pay h d => (h.length.toNat - d.length) + 2
  | .chk _ _ none => 2
  | .chk _ _ (some _) => 1

variable (p : Params) (b : Byte)

theorem eq_scan_of_bytesToScan_eq_zero {r : RxState} (h : bytesToScan p r = 0) : ∃ a, r = .scan a := by
  match r, h with
  | .scan a, _ => exact ⟨a, rfl⟩

/-- Once the header is in, only payload and checksum are missing. -/
theorem bytesToScan_le_of_header_in (r : RxState) (hr : rxWf p r = true)
    (hin : (∃ h d, r = .pay h d) ∨ (∃ h d lo, r = .chk h d lo)) : bytesToScan p r ≤ p.maxPayload.toNat + 2 := by
  obtain ⟨h, d, rfl⟩ | ⟨h, d, _ | lo, rfl⟩ := hin
  · obtain ⟨-, -, hmax, -⟩ := (rxWf_pay p h d).mp hr
    simp only [bytesToScan]; omega
  · simp only [bytesToScan]; omega
  · simp only [bytesToScan]; omega

theorem bytesToScan_le (r : RxState) (hr : rxWf p r = true) : bytesToScan p r ≤ p.maxPayload.toNat + 2 + 4 := by
  match r with
  | .scan _ => exact Nat.zero_le _
  | .hdr h => simp only [bytesToScan]; omega
  | .pay h d => exact (bytesToScan_le_of_header_in p _ hr (.inl ⟨h, d, rfl⟩)).trans (Nat.le_add_right _ 4)
  | .chk h d lo => exact (bytesToScan_le_of_header_in p _ hr (.inr ⟨h, d, lo, rfl⟩)).trans (Nat.le_add_right _ 4)

/-- After a complete header at most MAX_PAYLOAD payload bytes and the checksum are missing. -/
theorem bytesToScan_rxHeaderDone (h : Header) :
    bytesToScan p (rxHeaderDone p h).rxs ≤ p.maxPayload.toNat + 2 := by
  cases hb : headerBad p h with
  | true => rw [rxHeaderDone_bad p h hb]; exact Nat.zero_le _
  | false =>
    obtain ⟨-, hmax⟩ := (headerBad_eq_false_iff p h).mp hb
    by_cases hn : h.length = 0#8
    · rw [rxHeaderDone_empty p h hb hn]; exact Nat.le_add_left 2 _
    · rw [rxHeaderDone_payload p h hb hn]; exact Nat.add_le_add_right hmax 2

/-- Away from Scan every received byte brings the framer nearer to it. -/
theorem bytesToScan_rxStep_lt (r : RxState) (hr : rxWf p r = true) (hscan : bytesToScan p r ≠ 0) :
    bytesToScan p (rxStep p r b).rxs < bytesToScan p r := by
  match r with
  | .scan _ => exact absurd rfl hscan
  | .hdr h =>
    obtain hs | ⟨v, t, q, rfl⟩ := hdr_short_or_three (of_decide_eq_true hr)
    · rw [rxStep_hdr_short p b h hs]
      simp only [bytesToScan, List.length_append, List.length_singleton]; omega
    · have hdone := bytesToScan_rxHeaderDone p ⟨v, t, q, b⟩
      rw [rxStep_hdr_done]
      exact hdone.trans_lt (by simp only [bytesToScan, List.length_cons, List.length_nil]; omega)
  | .pay h d =>
    obtain ⟨-, -, -, hlen⟩ := (rxWf_pay p h d).mp hr
    by_cases hl : d.length + 1 = h.length.toNat
    · rw [rxStep_pay_last p b h d hl]
      simp only [bytesToScan]; omega
    · rw [rxStep_pay_more p b h d hl]
      simp only [bytesToScan, List.length_append, List.length_singleton]; omega
  | .chk h d none => exact Nat.lt_succ_self 1
  | .chk h d (some lo) =>
    by_cases hc : pairLE lo b = frameCrc h d
    · rw [rxStep_chk_match p b h d lo hc]; exact Nat.one_pos
    · rw [rxStep_chk_differ p b h d lo hc]; exact Nat.one_pos

variable {s : State}

/-- The bytes received reach Scan after no more of them than the bound. -/
theorem receive_scans_within (bs : List Byte) (hr : rxWf s.params s.rxs = true)
    (hlen : bytesToScan s.params s.rxs ≤ bs.length) :
    ∃ j ≤ bytesToScan s.params s.rxs, ∃ a, (s.receive (bs.take j)).rxs = .scan a := by
  induction bs generalizing s with
  | nil => exact ⟨0, Nat.zero_le _, eq_scan_of_bytesToScan_eq_zero _ (Nat.le_zero.mp hlen)⟩
  | cons b bs ih =>
    by_cases hscan : bytesToScan s.params s.rxs = 0
    · exact ⟨0, Nat.zero_le _, eq_scan_of_bytesToScan_eq_zero _ hscan⟩
    · have hparams : (after (.rx b) s).params = s.params := after_params _ s
      have hrxs : (after (.rx b) s).rxs = (rxStep s.params s.rxs b).rxs := rfl
      have hlt := bytesToScan_rxStep_lt s.params b s.rxs hr hscan
      have hnext := ih (s := after (.rx b) s)
      rw [hparams, hrxs] at hnext
      rw [List.length_cons] at hlen
      obtain ⟨j, hj, hend⟩ := hnext (rxStep_wf s.params b s.rxs hr) (by omega)
      exact ⟨j + 1, by omega, hend⟩

theorem run_scans_within {k : Nat} (bs : List Byte) (hr : rxWf s.params s.rxs = true)
    (hk : bytesToScan s.params s.rxs ≤ k) (hlen : k ≤ bs.length) :
    ∃ j ≤ k, ∃ u a, runEvents ((bs.take j).map Event.rx) s = .next u ∧ u.rxs = .scan a := by
  obtain ⟨j, hj, a, hend⟩ := receive_scans_within bs hr (hk.trans hlen)
  exact ⟨j, hj.trans hk, _, a, runEvents_rx s _, hend⟩

end Rescan

/-- Settles O52: `bytesToScan` falls with every byte, and R25 bounds it by the two numbers of R218. -/
theorem receiverScansAgainWithinTheBound : Obligations.ReceiverScansAgainWithinTheBound := by
  rintro s bs ⟨hr, -⟩
  exact ⟨fun hin => run_scans_within bs hr (bytesToScan_le_of_header_in s.params s.rxs hr hin),
    run_scans_within bs hr (bytesToScan_le s.params s.rxs hr)⟩

/-! ### The outputs of a run (R222) -/

section Outputs

/-- The output records of the events of a run from `s`, in order. -/
def outputs : List Event → State → List Output
  | [], _ => []
  | e :: es, s => (after e s).out :: outputs es (after e s)

variable (es : List Event) (s : State)

theorem outputs_length : (outputs es s).length = es.length := by
  induction es generalizing s with
  | nil => rfl
  | cons e es ih => exact congrArg (· + 1) (ih _)

/-- The record of each event is the output record of the run that ends with it. -/
theorem outputs_getElem? {k : Nat} (hk : k < es.length) :
    (outputs es s)[k]? = some ((es.take (k + 1)).foldl (fun u e => after e u) s).out := by
  induction es generalizing s k with
  | nil => exact absurd hk (Nat.not_lt_zero k)
  | cons e es ih =>
    cases k with
    | zero => rfl
    | succ k => exact ih _ (Nat.lt_of_succ_lt_succ hk)

/-- Every event adds its own output record to the streams; that of reset is empty (R210, R222). -/
theorem after_run (e : Event) : (after e s).run = s.run.record (after e s).out := by
  by_cases he : e = .reset
  · subst he
    exact (Streams.record_none s.run).symm
  · obtain ⟨i, hi⟩ := Event.exists_instr he
    rw [after_of_instr hi, State.recordOut_run, State.recordOut_out, effect_run]

theorem foldl_after_run : (es.foldl (fun u e => after e u) s).run = (outputs es s).foldl Streams.record s.run := by
  induction es generalizing s with
  | nil => rfl
  | cons e es ih => rw [List.foldl_cons, ih, after_run, outputs, List.foldl_cons]

theorem foldl_after_params_pending :
    (es.foldl (fun u e => after e u) s).params = s.params ∧
      (es.foldl (fun u e => after e u) s).pending = s.pending := by
  induction es generalizing s with
  | nil => exact ⟨rfl, rfl⟩
  | cons e es ih => simpa using ih (after e s)

/-- Recording one record after another appends each component in order. -/
theorem foldl_record (outs : List Output) (r : Streams) :
    outs.foldl Streams.record r =
      { tx := r.tx ++ outs.flatMap (·.tx), frames := r.frames ++ outs.filterMap (·.frame),
        reads := r.reads ++ outs.filterMap (·.rd) } := by
  simp only [List.filterMap_eq_flatMap_toList]
  induction outs generalizing r with
  | nil => simp
  | cons o outs ih => simp [ih]

/-- No number of steps faults or is refused (R190, R222). -/
theorem coreRun_next (k : Nat) : ∃ t, Host.Core.run core k s = .next t := by
  induction k generalizing s with
  | zero => exact ⟨s, rfl⟩
  | succ k ih =>
    obtain ⟨u, hu⟩ : ∃ u, core.step s = .next u := by
      obtain ⟨-, h⟩ | ⟨_, _, -, h⟩ := step_cases s
      · exact ⟨_, h⟩
      · exact ⟨_, h⟩
    simp only [Host.Core.run, hu]
    exact ih u

end Outputs

/-- Settles O21: a run ends in the fold of `after`, whose records are `outputs`. -/
theorem everyRunCompletes : Obligations.EveryRunCompletes := by
  refine ⟨fun es s => ?_, fun k s => coreRun_next s k⟩
  obtain ⟨hparams, hpending⟩ := foldl_after_params_pending es s
  refine ⟨_, runEvents_eq es s, hparams, hpending, outputs es s, outputs_length es s, ?_⟩
  rw [foldl_after_run, foldl_record]
  exact ⟨rfl, rfl, rfl, fun k hk => ⟨_, runEvents_eq _ s, outputs_getElem? es s hk⟩⟩

/-! ### The reset event (R210) -/

/-- Settles O2. -/
theorem resetEventRestoresTheTable : Obligations.ResetEventRestoresTheTable := fun _ _ hp => step_of_reset hp

end Sys2Proof.Machine
end
